-- ==== Sys2Proof/Word.lean ====
section
/-!
DEFINITION. The word types of the block and nothing else: the byte of an image cell (rule R12), the 12-bit host
address and the 64-bit host datum (rule R4), the 8-bit opcode (rule R60) and the 64-bit pattern of a binary64
register (rule R20).
-/

namespace Sys2Proof

/-- One byte of the byte image (rule R12). -/
abbrev Byte := BitVec 8

/-- A 12-bit host address (rule R4). -/
abbrev HostAddr := BitVec 12

/-- A 64-bit host datum (rules R4, R90). -/
abbrev Datum := BitVec 64

/-- An 8-bit operation code (rules R4, R60). -/
abbrev Opcode := BitVec 8

/-- The 64-bit pattern of an IEEE 754 binary64 datum: sign in bit 63, exponent in bits 62:52, fraction in bits
51:0 (rules R20, R45). -/
abbrev Bits64 := BitVec 64

end Sys2Proof
end

