-- ==== Sys2Proof/Syntax.lean ====
section
/-!
DEFINITION. The thirteen operations of rule R62, one constructor per row of spec/opcode_table.json. No operation has
a register field, an address field or an immediate (rule R61), so no constructor has an argument.
-/

namespace Sys2Proof

/-- The operations of the block (rule R62). -/
inductive Instr where
  /-- CLR.CYC, begin or end a measurement cycle (rule R100). -/
  | clrCyc
  /-- CLR.ALL, return to the reset state (rule R101). -/
  | clrAll
  /-- CLR.ERR, acknowledge a recorded fault (rule R102). -/
  | clrErr
  /-- UNPK.T, unpack the temperature calibration record (rule R111). -/
  | unpkT
  /-- UNPK.H, unpack the humidity calibration record (rule R112). -/
  | unpkH
  /-- UNPK.P, unpack the pressure calibration record (rule R113). -/
  | unpkP
  /-- ASM.T, assemble the raw temperature sample (rule R120). -/
  | asmT
  /-- ASM.H, assemble the raw humidity sample (rule R121). -/
  | asmH
  /-- ASM.P, assemble the raw pressure sample (rule R122). -/
  | asmP
  /-- CMP.TF, fine temperature (rule R131). -/
  | cmpTf
  /-- CMP.TC, temperature in degrees Celsius (rule R132). -/
  | cmpTc
  /-- CMP.H, relative humidity in percent (rule R134). -/
  | cmpH
  /-- CMP.P, pressure in pascal (rule R136). -/
  | cmpP
  deriving DecidableEq, Repr

end Sys2Proof
end

