-- ==== Sys2Proof/Decode.lean ====
section
/-!
DEFINITION. The decoder of rules R60 to R64, total on the 256 opcode values, and after it the encoder written from
the same table (rule R62). A value that is none of the thirteen is refused by `none`: writing it to CMD raises
IllegalOperation (rule R64; Sys2Proof/Machine/HostPort.lean).
-/

namespace Sys2Proof

/-- The operation an opcode selects: an exact match of all eight bits against the thirteen values of rule R62
(rule R63), and `none` for each of the 243 others (rule R64). -/
def decode (op : Opcode) : Option Instr :=
  match op.toNat with
  | 0x01 => some .clrCyc
  | 0x02 => some .clrAll
  | 0x03 => some .clrErr
  | 0x10 => some .unpkT
  | 0x11 => some .unpkH
  | 0x12 => some .unpkP
  | 0x20 => some .asmT
  | 0x21 => some .asmH
  | 0x22 => some .asmP
  | 0x30 => some .cmpTf
  | 0x31 => some .cmpTc
  | 0x32 => some .cmpH
  | 0x33 => some .cmpP
  | _ => none

/-- The opcode of an operation (rule R62). -/
def encode (i : Instr) : Opcode :=
  match i with
  | .clrCyc => 0x01#8
  | .clrAll => 0x02#8
  | .clrErr => 0x03#8
  | .unpkT => 0x10#8
  | .unpkH => 0x11#8
  | .unpkP => 0x12#8
  | .asmT => 0x20#8
  | .asmH => 0x21#8
  | .asmP => 0x22#8
  | .cmpTf => 0x30#8
  | .cmpTc => 0x31#8
  | .cmpH => 0x32#8
  | .cmpP => 0x33#8

/-- The opcode carried by the datum of a host write to CMD: its bits 7:0; bits 63:8 are ignored (rules R27, R60,
R65). -/
def opcodeOfDatum (d : Datum) : Opcode :=
  d.setWidth 8

/-- The host's question about one row of spec/opcode_table.json: the operation read from an instruction whose
`nbits` bits are `w`. Every row has eight bits and no further word (rule R60), so the instruction's bits are laid out
as the datum that the host would write to CMD. -/
def decodeTableWord (nbits w : Nat) : Option Instr :=
  decode (opcodeOfDatum (BitVec.ofNat 64 (w % 2 ^ nbits)))

end Sys2Proof
end

