-- ==== Sys2Proof/Machine/Binary64.lean ====
section
/-!
DEFINITION. IEEE 754 binary64 (rules R75 to R79): the data, their 64-bit patterns, the one rounding, and the four
operations `fadd`, `fsub`, `fmul`, `fdiv` and the conversion `f64` of rule R6. Every finite binary64 number is a whole
multiple of 2^-1074, so an operation computes on whole numbers exactly and rounds once at its end. A NaN has no
pattern here: one is chosen only where it is delivered to a register (rule R79).
-/

namespace Sys2Proof.Machine

/-- A binary64 datum (rule R75). `fin neg mag` is the number of magnitude `mag * 2^-1074` with the sign bit `neg`;
`fin false 0` is +0 and `fin true 0` is -0. -/
inductive Fp where
  | nan
  | inf (neg : Bool)
  | fin (neg : Bool) (mag : Nat)
  deriving DecidableEq, Repr

/-- The magnitude of 1.0 in multiples of 2^-1074. -/
def fpOne : Nat := 2 ^ 1074

/-- The magnitude of 2^1024 in multiples of 2^-1074: the least magnitude that is too large for a finite binary64
number. -/
def fpTop : Nat := 2 ^ 2098

/-- The exponent of the unit in the last place of a magnitude, in multiples of 2^-1074: 53 significant bits, and
never below 2^-1074 (gradual underflow, rule R75). -/
def ulpExp (q : Nat) : Nat :=
  q.log2 - 52

/-- `n / d` rounded to a whole number, ties to the even one (roundTiesToEven, rule R75). -/
def roundHalfEven (n d : Nat) : Nat :=
  if 2 * (n % d) < d then n / d
  else if d < 2 * (n % d) then n / d + 1
  else if n / d % 2 = 0 then n / d
  else n / d + 1

/-- The exact value `n / d` (in multiples of 2^-1074, `d` positive) of the sign `neg`, rounded once to binary64 with
roundTiesToEven, overflow to the infinity of that sign and gradual underflow (rule R75). -/
def roundToBinary64 (neg : Bool) (n d : Nat) : Fp :=
  if roundHalfEven n (d * 2 ^ ulpExp (n / d)) * 2 ^ ulpExp (n / d) < fpTop then
    .fin neg (roundHalfEven n (d * 2 ^ ulpExp (n / d)) * 2 ^ ulpExp (n / d))
  else .inf neg

/-- The whole number of a sign and a magnitude. -/
def signedMag (neg : Bool) (mag : Nat) : Int :=
  if neg then -(mag : Int) else mag

/-- A number with its sign bit inverted; a NaN stays a NaN. -/
def fneg (a : Fp) : Fp :=
  match a with
  | .nan => .nan
  | .inf s => .inf (!s)
  | .fin s x => .fin (!s) x

/-- The sum of two finite numbers given as whole numbers; an exact zero is -0 only when both operands have the sign
bit set (rule R78). -/
def faddFinite (s : Bool) (x : Nat) (t : Bool) (y : Nat) : Fp :=
  if signedMag s x + signedMag t y = 0 then .fin (s && t) 0
  else roundToBinary64 (decide (signedMag s x + signedMag t y < 0)) (signedMag s x + signedMag t y).natAbs 1

/-- Binary64 addition (rules R75, R77, R78). -/
def fadd (a b : Fp) : Fp :=
  match a, b with
  | .nan, _ => .nan
  | .inf _, .nan => .nan
  | .inf s, .inf t => if s = t then .inf s else .nan
  | .inf s, .fin _ _ => .inf s
  | .fin _ _, .nan => .nan
  | .fin _ _, .inf t => .inf t
  | .fin s x, .fin t y => faddFinite s x t y

/-- Binary64 subtraction: the sum with the second operand's sign inverted (rules R75, R77, R78). -/
def fsub (a b : Fp) : Fp :=
  fadd a (fneg b)

/-- Binary64 multiplication (rules R75, R77, R78). -/
def fmul (a b : Fp) : Fp :=
  match a, b with
  | .nan, _ => .nan
  | .inf _, .nan => .nan
  | .inf s, .inf t => .inf (s ^^ t)
  | .inf s, .fin t y => if y = 0 then .nan else .inf (s ^^ t)
  | .fin _ _, .nan => .nan
  | .fin s x, .inf t => if x = 0 then .nan else .inf (s ^^ t)
  | .fin s x, .fin t y => roundToBinary64 (s ^^ t) (x * y) fpOne

/-- Binary64 division (rules R75, R77). -/
def fdiv (a b : Fp) : Fp :=
  match a, b with
  | .nan, _ => .nan
  | .inf _, .nan => .nan
  | .inf _, .inf _ => .nan
  | .inf s, .fin t _ => .inf (s ^^ t)
  | .fin _ _, .nan => .nan
  | .fin s _, .inf t => .fin (s ^^ t) 0
  | .fin s x, .fin t y =>
    if y = 0 then (if x = 0 then .nan else .inf (s ^^ t))
    else roundToBinary64 (s ^^ t) (x * fpOne) y

/-- `f64(i)`: an integer converted to binary64; `f64(0)` is +0 (rules R6, R76). -/
def f64 (i : Int) : Fp :=
  roundToBinary64 (decide (i < 0)) (i.natAbs * fpOne) 1

/-- The datum of a 64-bit pattern: sign in bit 63, exponent in bits 62:52 with bias 1023, fraction in bits 51:0
(rules R45, R75). -/
def Fp.ofBits (v : Bits64) : Fp :=
  if v.extractLsb' 52 11 = 0x7FF#11 then
    (if v.extractLsb' 0 52 = 0#52 then .inf (v.getLsbD 63) else .nan)
  else if v.extractLsb' 52 11 = 0#11 then .fin (v.getLsbD 63) (v.extractLsb' 0 52).toNat
  else .fin (v.getLsbD 63) ((2 ^ 52 + (v.extractLsb' 0 52).toNat) * 2 ^ ((v.extractLsb' 52 11).toNat - 1))

/-- The pattern of a sign bit alone. -/
def signBits (neg : Bool) : Bits64 :=
  if neg then 0x8000000000000000#64 else 0#64

/-- A quiet NaN whose sign and fraction bits 50:0 are those of `choice` (rule R79). -/
def quietNaN (choice : BitVec 64) : Bits64 :=
  choice ||| 0x7FF8000000000000#64

/-- The 64-bit pattern of a datum; `choice` is the draw NAN_CHOICE, used only for a NaN (rules R45, R75, R79). -/
def Fp.toBits (choice : BitVec 64) (a : Fp) : Bits64 :=
  match a with
  | .nan => quietNaN choice
  | .inf s => signBits s ||| 0x7FF0000000000000#64
  | .fin s x => signBits s ||| BitVec.ofNat 64 (ulpExp x * 2 ^ 52 + x / 2 ^ ulpExp x)

/-- A quiet NaN pattern: exponent bits all 1 and fraction bit 51 set (rule R79). -/
def isQuietNaN (v : Bits64) : Bool :=
  v.extractLsb' 52 11 == 0x7FF#11 && v.getLsbD 51

/-- A datum that is a binary64 number: a finite magnitude has at most 53 significant bits and is below 2^1024. -/
def Fp.representable (a : Fp) : Bool :=
  match a with
  | .nan => true
  | .inf _ => true
  | .fin _ x => decide (x < fpTop) && decide (x % 2 ^ ulpExp x = 0)

end Sys2Proof.Machine
end

