-- ==== Sys2Proof/Config.lean ====
section
/-!
DEFINITION. What the spec leaves to the instantiation of the block (rule R5): the types of its parameters
CAL16_LSB_FIRST, PCAL_MAP and PRESS_POLY, and the free values NAN_CHOICE and the datum of a read that answers
`ok = 0`. The parameters' default values stand in Sys2Proof/Machine/Defaults.lean; State holds the parameters
(assumption log, entry 1).
-/

namespace Sys2Proof

/-- The two image cells of a 16-bit calibration field, as rule R47 labels them. With `CAL16_LSB_FIRST` false their
roles are swapped (rule R43). -/
structure CellPair where
  /-- The cell that holds the least significant byte when `CAL16_LSB_FIRST` is true. -/
  lsb : BitVec 8
  /-- The cell that holds the most significant byte when `CAL16_LSB_FIRST` is true. -/
  msb : BitVec 8
  deriving DecidableEq, Repr

/-- `PCAL_MAP`: the sixteen image cells of the pressure calibration fields (rules R5, R47, R114). -/
structure PcalMap where
  par_p1 : CellPair
  par_p2 : CellPair
  par_p3 : BitVec 8
  par_p4 : CellPair
  par_p5 : CellPair
  par_p6 : BitVec 8
  par_p7 : BitVec 8
  par_p8 : CellPair
  par_p9 : CellPair
  par_p10 : BitVec 8
  deriving DecidableEq, Repr

/-- The names of the ten fields of the pressure calibration record (rule R16). -/
inductive PcalField where
  | p1 | p2 | p3 | p4 | p5 | p6 | p7 | p8 | p9 | p10
  deriving DecidableEq, Repr

/-- `PRESS_POLY`: the literal expression tree of the pressure polynomial (rules R5, R136), whose nodes are the four
binary64 operations of rule R80 and whose leaves are what rule R136 lets it depend on: RAW_P, the fields of PCAL and
TFINE, and numerals `n.0` (rule R81 b). -/
inductive PressExpr where
  /-- The numeral `n.0` (rules R6, R81 b). -/
  | lit (n : Nat)
  /-- `f64(RAW_P)`. -/
  | rawP
  /-- `f64(PCAL.par_pN)`. -/
  | par (f : PcalField)
  /-- `TFINE`. -/
  | tfine
  | add (a b : PressExpr)
  | sub (a b : PressExpr)
  | mul (a b : PressExpr)
  | div (a b : PressExpr)
  deriving DecidableEq, Repr

/-- The three parameters of rule R5 that are data. They are fixed for one block: no step changes them. -/
structure Params where
  /-- `CAL16_LSB_FIRST`: the lower device address of a 16-bit calibration pair holds the least significant byte. -/
  cal16LsbFirst : Bool
  /-- `PCAL_MAP`. -/
  pcalMap : PcalMap
  /-- `PRESS_POLY`. -/
  pressPoly : PressExpr
  deriving DecidableEq, Repr

/-- FREE VALUE `NAN_CHOICE` (rules R5, R79; assumption log, entry 6): the draws from which the sign and the fraction
bits 50:0 of the quiet NaN that an operation delivers are taken. It has no body: no proof sees a value of it. -/
opaque Config.nanChoice : Nat → BitVec 64

/-- FREE VALUE (rule R90; 93_implementation_defined.md U14; assumption log, entry 7): the datum that comes with a
read answer `ok = 0`. It has no body: no proof sees a value of it. -/
opaque Config.freeDatum : Nat → BitVec 64

end Sys2Proof
end

