-- ==== Sys2Proof/Machine/Defaults.lean ====
section
/-!
DEFINITION. The default values of the parameters of rule R5, the values at which State.reset holds them. All three
come from the spec's general knowledge of the BME680 (93_implementation_defined.md G1, G2, G3; assumption log,
entries 2, 3, 4).
-/

namespace Sys2Proof.Machine

/-- The default `CAL16_LSB_FIRST` (rules R5, R43). -/
def cal16LsbFirstDefault : Bool := true

/-- The default `PCAL_MAP` (rule R47). -/
def pcalMapDefault : PcalMap :=
  { par_p1 := ⟨0x8E, 0x8F⟩
    par_p2 := ⟨0x90, 0x91⟩
    par_p3 := 0x92
    par_p4 := ⟨0x94, 0x95⟩
    par_p5 := ⟨0x96, 0x97⟩
    par_p6 := 0x99
    par_p7 := 0x98
    par_p8 := ⟨0x9C, 0x9D⟩
    par_p9 := ⟨0x9E, 0x9F⟩
    par_p10 := 0xA0 }

/-- `a1` of rule R137. -/
def pressA1 : PressExpr :=
  .sub (.div .tfine (.lit 2)) (.lit 64000)

/-- `a2` of rule R137 after its first line. -/
def pressA2Square : PressExpr :=
  .mul (.mul pressA1 pressA1) (.div (.par .p6) (.lit 131072))

/-- `a2` of rule R137 after its second line. -/
def pressA2Sum : PressExpr :=
  .add pressA2Square (.mul (.mul pressA1 (.par .p5)) (.lit 2))

/-- `a2` of rule R137 after its last line. -/
def pressA2 : PressExpr :=
  .add (.div pressA2Sum (.lit 4)) (.mul (.par .p4) (.lit 65536))

/-- `b1` of rule R137 after its first line. -/
def pressB1Inner : PressExpr :=
  .div (.add (.div (.mul (.mul (.par .p3) pressA1) pressA1) (.lit 16384)) (.mul (.par .p2) pressA1)) (.lit 524288)

/-- `b1` of rule R137 after its last line. -/
def pressB1 : PressExpr :=
  .mul (.add (.lit 1) (.div pressB1Inner (.lit 32768))) (.par .p1)

/-- `pc` of rule R137 after its first line: the term `1048576 - rawPress` of rule R136. -/
def pressPcRaw : PressExpr :=
  .sub (.lit 1048576) .rawP

/-- `pc` of rule R137 after its last line. -/
def pressPc : PressExpr :=
  .div (.mul (.sub pressPcRaw (.div pressA2 (.lit 4096))) (.lit 6250)) pressB1

/-- `c1` of rule R137. -/
def pressC1 : PressExpr :=
  .div (.mul (.mul (.par .p9) pressPc) pressPc) (.lit 2147483648)

/-- `c2` of rule R137. -/
def pressC2 : PressExpr :=
  .mul pressPc (.div (.par .p8) (.lit 32768))

/-- `q` of rule R137. -/
def pressQ : PressExpr :=
  .div pressPc (.lit 256)

/-- `c3` of rule R137. -/
def pressC3 : PressExpr :=
  .mul (.mul (.mul pressQ pressQ) pressQ) (.div (.par .p10) (.lit 131072))

/-- The default `PRESS_POLY` (rule R137). -/
def pressPolyDefault : PressExpr :=
  .add pressPc
    (.div (.add (.add (.add pressC1 pressC2) pressC3) (.mul (.par .p7) (.lit 128))) (.lit 16))

/-- The parameters at their default values (rule R5). -/
def paramsDefault : Params :=
  { cal16LsbFirst := cal16LsbFirstDefault
    pcalMap := pcalMapDefault
    pressPoly := pressPolyDefault }

end Sys2Proof.Machine
end

