-- ==== Sys2Proof/Machine/State.lean ====
section
/-!
DEFINITION. The state of the block as plain data (rule R10), with the host's pending transactions and their answers
and the parameters of rule R5 beside it as the model's own fields, and the state after reset (rules R33, R170).
A valid bit is the presence of a value: a cell is valid when the image lists it, a register when it is `some`
(93_implementation_defined.md U4; assumption log, entry 5).
-/

namespace Sys2Proof.Machine

/-- The byte image IMG (rule R12): the valid cells with their bytes, by rising address. A cell that is not listed has
the valid bit 0 and holds no value (rule R13). -/
abbrev Memory := List Host.Cell

/-- TCAL, the temperature calibration record (rule R14). -/
structure TCal where
  /-- Unsigned 16-bit. -/
  par_t1 : BitVec 16
  /-- Signed 16-bit. -/
  par_t2 : BitVec 16
  /-- Signed 8-bit. -/
  par_t3 : BitVec 8
  deriving DecidableEq, Repr

/-- HCAL, the humidity calibration record (rule R15). -/
structure HCal where
  /-- Unsigned 12-bit value stored in 16 bits. -/
  par_h1 : BitVec 16
  /-- Unsigned 12-bit value stored in 16 bits. -/
  par_h2 : BitVec 16
  /-- Signed 8-bit. -/
  par_h3 : BitVec 8
  /-- Signed 8-bit. -/
  par_h4 : BitVec 8
  /-- Signed 8-bit. -/
  par_h5 : BitVec 8
  /-- Unsigned 8-bit. -/
  par_h6 : BitVec 8
  /-- Signed 8-bit. -/
  par_h7 : BitVec 8
  deriving DecidableEq, Repr

/-- PCAL, the pressure calibration record (rule R16). -/
structure PCal where
  /-- Unsigned 16-bit. -/
  par_p1 : BitVec 16
  /-- Signed 16-bit. -/
  par_p2 : BitVec 16
  /-- Signed 8-bit. -/
  par_p3 : BitVec 8
  /-- Signed 16-bit. -/
  par_p4 : BitVec 16
  /-- Signed 16-bit. -/
  par_p5 : BitVec 16
  /-- Signed 8-bit. -/
  par_p6 : BitVec 8
  /-- Signed 8-bit. -/
  par_p7 : BitVec 8
  /-- Signed 16-bit. -/
  par_p8 : BitVec 16
  /-- Signed 16-bit. -/
  par_p9 : BitVec 16
  /-- Unsigned 8-bit. -/
  par_p10 : BitVec 8
  deriving DecidableEq, Repr

/-- The three faults the block can record (rules R151, R153). They are recorded in STATUS and do not stop the block
(rule R157). -/
inductive FaultKind where
  | illegalOperation
  | inputNotValid
  | badHostAccess
  deriving DecidableEq, Repr

/-- What the outside can do to the block between two of its steps: the two host transactions of rule R90 and the
reset of rule R170. -/
inductive HostEvent where
  /-- `WR(h, d)` (rule R91). -/
  | write (h : HostAddr) (d : Datum)
  /-- `RD(h)` (rule R93). -/
  | read (h : HostAddr)
  /-- The reset step (rule R170). -/
  | reset
  deriving DecidableEq, Repr

/-- The pair `(ok, d)` that a `RD` returns (rule R90). -/
structure ReadAnswer where
  ok : Bool
  datum : Datum
  deriving DecidableEq, Repr

/-- The state. The fields from `img` to `einfo` are the complete state of the block (rule R10); the last four are
the model's own. -/
structure State where
  /-- The byte image (rule R12). -/
  img : Memory
  /-- TCAL with V(TCAL) (rule R14). -/
  tcal : Option TCal
  /-- HCAL with V(HCAL) (rule R15). -/
  hcal : Option HCal
  /-- PCAL with V(PCAL) (rule R16). -/
  pcal : Option PCal
  /-- RAW_T, a 20-bit value in a 32-bit container, with its valid bit (rule R18). -/
  rawT : Option (BitVec 32)
  /-- RAW_H with its valid bit (rule R18). -/
  rawH : Option (BitVec 16)
  /-- RAW_P, a 20-bit value in a 32-bit container, with its valid bit (rule R18). -/
  rawP : Option (BitVec 32)
  /-- TFINE with its valid bit (rule R20). -/
  tfine : Option Bits64
  /-- TC with its valid bit (rule R20). -/
  tc : Option Bits64
  /-- HUM with its valid bit (rule R20). -/
  hum : Option Bits64
  /-- PRESS with its valid bit (rule R20). -/
  press : Option Bits64
  /-- STATUS.ERR (rule R25). -/
  err : Bool
  /-- STATUS.ECODE (rule R25). -/
  ecode : BitVec 3
  /-- STATUS.EINFO (rule R25). -/
  einfo : BitVec 12
  /-- MODEL'S OWN: the parameters of rule R5, constant in every run (assumption log, entry 1). -/
  params : Params
  /-- MODEL'S OWN: how many free values have been drawn (assumption log, entries 6 and 7). -/
  draws : Nat
  /-- MODEL'S OWN: the transactions the host performs next, in order (rules R8, R11; assumption log, entry 8). -/
  pending : List HostEvent
  /-- MODEL'S OWN: the answers of the reads performed so far, the latest first (assumption log, entry 9). -/
  answers : List ReadAnswer
  deriving DecidableEq, Repr

/-- What stops the machine: nothing. The block's three faults are recorded in STATUS and it goes on (rules R152,
R157), and every host transaction completes (rule R182), so no step raises one of these; safe (assumption log,
entry 11). -/
inductive Fault where
  deriving DecidableEq, Repr

/-- Why a step has no meaning. -/
inductive Refusal where
  /-- An operation without a meaning yet, raised by its arm of `exec` alone; safe. No arm raises it: all thirteen
  operations have their meaning. -/
  | notModelled (mnemonic : String)
  deriving DecidableEq, Repr

/-- The machine right after reset (rules R33, R170): all 266 valid bits 0, ERR = 0, ECODE = 0, EINFO = 0. The
model's own fields hold the default parameters, no draw taken, no pending transaction and no answer (assumption log,
entries 1, 6, 8, 9). -/
def State.reset : State :=
  { img := []
    tcal := none
    hcal := none
    pcal := none
    rawT := none
    rawH := none
    rawP := none
    tfine := none
    tc := none
    hum := none
    press := none
    err := false
    ecode := 0#3
    einfo := 0#12
    params := paramsDefault
    draws := 0
    pending := []
    answers := [] }

end Sys2Proof.Machine
end

