-- ==== Sys2Proof/Machine/Flags.lean ====
section
/-!
DEFINITION. The flags of the block: the valid bits and what clears them together (rules R22, R23), the fault codes
(rule R153), and the STATUS register the host reads (rules R25, R26). The block has no arithmetic condition codes.
-/

namespace Sys2Proof.Machine

/-- The ECODE of a fault (rule R153). -/
def FaultKind.code (f : FaultKind) : BitVec 3 :=
  match f with
  | .illegalOperation => 1#3
  | .inputNotValid => 2#3
  | .badHostAccess => 3#3

/-- `invalidate(HUM)`. -/
def invalidateHum (s : State) : State :=
  { s with hum := none }

/-- `invalidate(PRESS)`. -/
def invalidatePress (s : State) : State :=
  { s with press := none }

/-- `invalidate(TC, HUM, PRESS)`: everything computed from TFINE (rule R23). -/
def invalidateFromTfine (s : State) : State :=
  { s with tc := none, hum := none, press := none }

/-- `invalidate(TFINE, TC, HUM, PRESS)`: everything computed from TCAL or RAW_T (rule R23). -/
def invalidateFromTemperature (s : State) : State :=
  { s with tfine := none, tc := none, hum := none, press := none }

/-- STATUS as a `RD 0x100` returns it: ERR, ECODE and EINFO as recorded, the ten valid bits live, and the reserved
bits 0 (rules R25, R26). -/
def statusWord (s : State) : Datum :=
  0#36 ++ s.einfo ++ 0#2
    ++ BitVec.ofBool s.press.isSome ++ BitVec.ofBool s.hum.isSome ++ BitVec.ofBool s.tc.isSome
    ++ BitVec.ofBool s.tfine.isSome ++ BitVec.ofBool s.rawP.isSome ++ BitVec.ofBool s.rawH.isSome
    ++ BitVec.ofBool s.rawT.isSome ++ BitVec.ofBool s.pcal.isSome ++ BitVec.ofBool s.hcal.isSome
    ++ BitVec.ofBool s.tcal.isSome ++ s.ecode ++ BitVec.ofBool s.err

end Sys2Proof.Machine
end

