-- ==== Sys2Proof/Machine/Ops.lean ====
section
/-!
DEFINITION. The named operations over the image and the registers: reading, writing and clearing cells (rules R12,
R13), writing a register with the invalidations of rule R23, recording a fault and clearing the record (rules R152,
R161), and delivering the result of a computation to its register (rule R79).
-/

namespace Sys2Proof.Machine

/-- The byte of a valid cell; `none` when the cell's valid bit is 0 (rule R13). -/
def Memory.read (m : Memory) (a : Nat) : Option Byte :=
  match m with
  | [] => none
  | (b, v) :: rest => if b = a then some v else Memory.read rest a

/-- `IMG[a] <- b`: the byte replaced or the cell made valid, the list kept by rising address (rules R6, R91). -/
def Memory.write (m : Memory) (a : Nat) (v : Byte) : Memory :=
  match m with
  | [] => [(a, v)]
  | (b, w) :: rest =>
    if a < b then (a, v) :: (b, w) :: rest
    else if a = b then (a, v) :: rest
    else (b, w) :: Memory.write rest a v

/-- `IMGV[a] <- 0` for every `a` in `lo .. hi` (rules R100, R101). -/
def Memory.clearRange (m : Memory) (lo hi : Nat) : Memory :=
  match m with
  | [] => []
  | (b, w) :: rest =>
    if lo ≤ b ∧ b ≤ hi then Memory.clearRange rest lo hi else (b, w) :: Memory.clearRange rest lo hi

/-- Every listed address lies above `lo` and the addresses rise strictly, all below 256. -/
def Memory.risesFrom (m : Memory) (lo : Nat) : Bool :=
  match m with
  | [] => true
  | (b, _) :: rest => decide (lo ≤ b) && decide (b < 256) && Memory.risesFrom rest (b + 1)

/-- The canonical form of the image: addresses strictly rising and inside 0x00..0xFF (rule R12). No entry can equal
what an unlisted address reads as, because that is no value at all (rule R13). -/
def Memory.wf (m : Memory) : Bool :=
  Memory.risesFrom m 0

/-- The host's store into an image cell: it invalidates nothing (rules R23, R91). -/
def storeCell (a : Nat) (v : Byte) (s : State) : State :=
  { s with img := Memory.write s.img a v }

/-- `TCAL <- r` with `invalidate(TFINE, TC, HUM, PRESS)` (rule R23). -/
def writeTcal (r : TCal) (s : State) : State :=
  invalidateFromTemperature { s with tcal := some r }

/-- `HCAL <- r` with `invalidate(HUM)` (rule R23). -/
def writeHcal (r : HCal) (s : State) : State :=
  invalidateHum { s with hcal := some r }

/-- `PCAL <- r` with `invalidate(PRESS)` (rule R23). -/
def writePcal (r : PCal) (s : State) : State :=
  invalidatePress { s with pcal := some r }

/-- `RAW_T <- v` with `invalidate(TFINE, TC, HUM, PRESS)` (rule R23). -/
def writeRawT (v : BitVec 32) (s : State) : State :=
  invalidateFromTemperature { s with rawT := some v }

/-- `RAW_H <- v` with `invalidate(HUM)` (rule R23). -/
def writeRawH (v : BitVec 16) (s : State) : State :=
  invalidateHum { s with rawH := some v }

/-- `RAW_P <- v` with `invalidate(PRESS)` (rule R23). -/
def writeRawP (v : BitVec 32) (s : State) : State :=
  invalidatePress { s with rawP := some v }

/-- `TFINE <- v` with `invalidate(TC, HUM, PRESS)`, by CMP.TF and by the host alike (rule R23). -/
def writeTfine (v : Bits64) (s : State) : State :=
  invalidateFromTfine { s with tfine := some v }

/-- `TC <- v` with `invalidate(HUM)`, by CMP.TC and by the host alike (rule R23). -/
def writeTc (v : Bits64) (s : State) : State :=
  invalidateHum { s with tc := some v }

/-- `HUM <- v`; nothing is computed from HUM (rule R23). -/
def writeHum (v : Bits64) (s : State) : State :=
  { s with hum := some v }

/-- `PRESS <- v`; nothing is computed from PRESS (rule R23). -/
def writePress (v : Bits64) (s : State) : State :=
  { s with press := some v }

/-- Fault entry, common to the three faults (rules R152, R160): the first fault since the last clear is recorded, a
later one is not, and nothing else changes. -/
def raiseFault (f : FaultKind) (info : BitVec 12) (s : State) : State :=
  if s.err then s else { s with err := true, ecode := f.code, einfo := info }

/-- `raise InputNotValid(opcode)` of the operation `i` (rules R153, R155). -/
def raiseInputNotValid (i : Instr) (s : State) : State :=
  raiseFault .inputNotValid ((encode i).setWidth 12) s

/-- The return from a fault: the record is cleared and nothing else (rules R102, R161). -/
def clearFault (s : State) : State :=
  { s with err := false, ecode := 0#3, einfo := 0#12 }

/-- The reset step (rule R170): every piece of the block's state as after reset; the parameters, the host's
transactions and answers and the count of draws are no state of the block and stay. -/
def resetBlock (s : State) : State :=
  { State.reset with params := s.params, draws := s.draws, pending := s.pending, answers := s.answers }

/-- The pattern a result register receives: the datum's own, or for a NaN a quiet NaN of the next draw (rule R79). -/
def resultBits (x : Fp) (s : State) : Bits64 :=
  x.toBits (Config.nanChoice s.draws)

/-- A NaN result uses up one draw of NAN_CHOICE; any other result uses none (rule R79). -/
def countDraw (x : Fp) (s : State) : State :=
  match x with
  | .nan => { s with draws := s.draws + 1 }
  | .inf _ => s
  | .fin _ _ => s

/-- A result delivered to TFINE. -/
def deliverTfine (x : Fp) (s : State) : State :=
  writeTfine (resultBits x s) (countDraw x s)

/-- A result delivered to TC. -/
def deliverTc (x : Fp) (s : State) : State :=
  writeTc (resultBits x s) (countDraw x s)

/-- A result delivered to HUM. -/
def deliverHum (x : Fp) (s : State) : State :=
  writeHum (resultBits x s) (countDraw x s)

/-- A result delivered to PRESS. -/
def deliverPress (x : Fp) (s : State) : State :=
  writePress (resultBits x s) (countDraw x s)

end Sys2Proof.Machine
end

