-- ==== Sys2Proof/Machine/Operands.lean ====
section
/-!
DEFINITION. The operands of the operations: the integer packings of rules R70 to R74, the byte order of calibration
pairs (rule R43), and the reading of whole records and samples from image cells, each of which answers `none` when a
cell it needs is not valid (rules R110, R155).
-/

namespace Sys2Proof.Machine

/-- `assemble16(msb, lsb) = (msb << 8) | lsb` (rule R71). -/
def assemble16 (msb lsb : Byte) : BitVec 16 :=
  (msb.setWidth 16 <<< 8) ||| lsb.setWidth 16

/-- `(m << 4) | (s & 0x0F)` in a 16-bit container (rule R73). -/
def packLowNibble (m s : Byte) : BitVec 16 :=
  (m.setWidth 16 <<< 4) ||| (s &&& 0x0F#8).setWidth 16

/-- `(m << 4) | (s >> 4)` in a 16-bit container (rule R73). -/
def packHighNibble (m s : Byte) : BitVec 16 :=
  (m.setWidth 16 <<< 4) ||| (s >>> 4).setWidth 16

/-- `raw20(msb, lsb, xlsb) = (msb << 12) | (lsb << 4) | (xlsb >> 4)` in a 32-bit container (rules R18, R74). -/
def raw20 (msb lsb xlsb : Byte) : BitVec 32 :=
  (msb.setWidth 32 <<< 12) ||| (lsb.setWidth 32 <<< 4) ||| (xlsb >>> 4).setWidth 32

/-- `raw16(msb, lsb) = assemble16(msb, lsb)` (rule R74). -/
def raw16 (msb lsb : Byte) : BitVec 16 :=
  assemble16 msb lsb

/-- `u8`, the unsigned value of a byte (rule R6). -/
def u8 (b : BitVec 8) : Int := b.toNat

/-- `s8`, two's complement (rules R6, R72). -/
def s8 (b : BitVec 8) : Int :=
  if b.toNat < 128 then b.toNat else (b.toNat : Int) - 256

/-- `u16`, the unsigned value of a 16-bit pattern (rule R6). -/
def u16 (w : BitVec 16) : Int := w.toNat

/-- `s16`, two's complement (rules R6, R72). -/
def s16 (w : BitVec 16) : Int :=
  if w.toNat < 32768 then w.toNat else (w.toNat : Int) - 65536

/-- The unsigned value of a raw sample's 32-bit container (rule R18). -/
def u32 (w : BitVec 32) : Int := w.toNat

/-- A 16-bit calibration pattern from its two cells: `lsb` holds the least significant byte when CAL16_LSB_FIRST is
true, and the two swap their roles when it is false (rule R43). -/
def readPair (p : Params) (m : Memory) (lsb msb : Nat) : Option (BitVec 16) :=
  match Memory.read m lsb, Memory.read m msb with
  | some l, some h => some (if p.cal16LsbFirst then assemble16 h l else assemble16 l h)
  | _, _ => none

/-- The pair of cells a pressure map names for a field (rules R43, R47, R114). -/
def readCellPair (p : Params) (m : Memory) (c : CellPair) : Option (BitVec 16) :=
  readPair p m c.lsb.toNat c.msb.toNat

/-- The temperature calibration record from the image (rule R111). -/
def readTcal (p : Params) (m : Memory) : Option TCal := do
  let t1 ← readPair p m 0xE9 0xEA
  let t2 ← readPair p m 0x8A 0x8B
  let t3 ← Memory.read m 0x8C
  return { par_t1 := t1, par_t2 := t2, par_t3 := t3 }

/-- The humidity calibration record from the image (rule R112). -/
def readHcal (m : Memory) : Option HCal := do
  let m2 ← Memory.read m 0xE1
  let s ← Memory.read m 0xE2
  let m1 ← Memory.read m 0xE3
  let h3 ← Memory.read m 0xE4
  let h4 ← Memory.read m 0xE5
  let h5 ← Memory.read m 0xE6
  let h6 ← Memory.read m 0xE7
  let h7 ← Memory.read m 0xE8
  return { par_h1 := packLowNibble m1 s, par_h2 := packHighNibble m2 s, par_h3 := h3, par_h4 := h4, par_h5 := h5,
           par_h6 := h6, par_h7 := h7 }

/-- The pressure calibration record from the image, by the pressure map (rules R113, R114). -/
def readPcal (p : Params) (m : Memory) : Option PCal := do
  let p1 ← readCellPair p m p.pcalMap.par_p1
  let p2 ← readCellPair p m p.pcalMap.par_p2
  let p3 ← Memory.read m p.pcalMap.par_p3.toNat
  let p4 ← readCellPair p m p.pcalMap.par_p4
  let p5 ← readCellPair p m p.pcalMap.par_p5
  let p6 ← Memory.read m p.pcalMap.par_p6.toNat
  let p7 ← Memory.read m p.pcalMap.par_p7.toNat
  let p8 ← readCellPair p m p.pcalMap.par_p8
  let p9 ← readCellPair p m p.pcalMap.par_p9
  let p10 ← Memory.read m p.pcalMap.par_p10.toNat
  return { par_p1 := p1, par_p2 := p2, par_p3 := p3, par_p4 := p4, par_p5 := p5, par_p6 := p6, par_p7 := p7,
           par_p8 := p8, par_p9 := p9, par_p10 := p10 }

/-- A 20-bit raw sample from its three cells, most significant byte first (rules R42, R120, R122). -/
def readRaw20 (m : Memory) (msb lsb xlsb : Nat) : Option (BitVec 32) :=
  match Memory.read m msb, Memory.read m lsb, Memory.read m xlsb with
  | some a, some b, some c => some (raw20 a b c)
  | _, _, _ => none

/-- A 16-bit raw sample from its two cells, most significant byte first (rules R42, R121). -/
def readRaw16 (m : Memory) (msb lsb : Nat) : Option (BitVec 16) :=
  match Memory.read m msb, Memory.read m lsb with
  | some a, some b => some (raw16 a b)
  | _, _ => none

end Sys2Proof.Machine
end

