-- ==== Sys2Proof/Machine/Calibration.lean ====
section
/-!
DEFINITION. Calibration unpacking, UNPK.T, UNPK.H and UNPK.P (rules R110 to R116): all or nothing, from the cells of
the image to a whole record, or InputNotValid when a needed cell is not valid.
-/

namespace Sys2Proof.Machine

/-- UNPK.T (rule R111). -/
def execUnpkT (s : State) : Host.Outcome State Fault Refusal :=
  match readTcal s.params s.img with
  | some r => .next (writeTcal r s)
  | none => .next (raiseInputNotValid .unpkT s)

/-- UNPK.H (rule R112). -/
def execUnpkH (s : State) : Host.Outcome State Fault Refusal :=
  match readHcal s.img with
  | some r => .next (writeHcal r s)
  | none => .next (raiseInputNotValid .unpkH s)

/-- UNPK.P (rules R113, R114). -/
def execUnpkP (s : State) : Host.Outcome State Fault Refusal :=
  match readPcal s.params s.img with
  | some r => .next (writePcal r s)
  | none => .next (raiseInputNotValid .unpkP s)

end Sys2Proof.Machine
end

