-- ==== Sys2Proof/Machine/Compensation.lean ====
section
/-!
DEFINITION. Compensation, CMP.TF, CMP.TC, CMP.H and CMP.P (rules R130 to R142): the literal expression trees of the
formulas (rules R80, R81) over the binary64 operations, and the four operations that deliver their results. Given
valid inputs each completes; no floating-point condition is a fault (rules R77, R130).
-/

namespace Sys2Proof.Machine

/-- `var1` of rule R131. -/
def tfVar1 (r t1 t2 : Fp) : Fp :=
  fmul (fsub (fdiv r (f64 16384)) (fdiv t1 (f64 1024))) t2

/-- `e` of rule R131. -/
def tfDelta (r t1 : Fp) : Fp :=
  fsub (fdiv r (f64 131072)) (fdiv t1 (f64 8192))

/-- `var2` of rule R131. -/
def tfVar2 (r t1 t3 : Fp) : Fp :=
  fmul (fmul (tfDelta r t1) (tfDelta r t1)) (fmul t3 (f64 16))

/-- The fine temperature of a raw sample and a calibration record (rule R131). -/
def fineTemperature (raw : BitVec 32) (c : TCal) : Fp :=
  fadd (tfVar1 (f64 (u32 raw)) (f64 (u16 c.par_t1)) (f64 (s16 c.par_t2)))
    (tfVar2 (f64 (u32 raw)) (f64 (u16 c.par_t1)) (f64 (s8 c.par_t3)))

/-- The temperature in degrees Celsius of a fine temperature (rule R132). -/
def temperatureCelsius (t : Fp) : Fp :=
  fdiv t (f64 5120)

/-- `var1` of rule R134. -/
def humVar1 (r h1 h3 t : Fp) : Fp :=
  fsub r (fadd (fmul h1 (f64 16)) (fmul (fdiv h3 (f64 2)) t))

/-- `inner` of rule R134. -/
def humInner (h4 h5 t : Fp) : Fp :=
  fadd (fadd (f64 1) (fmul (fdiv h4 (f64 16384)) t)) (fmul (fdiv h5 (f64 1048576)) (fmul t t))

/-- `var2` of rule R134. -/
def humVar2 (var1 h2 inner : Fp) : Fp :=
  fmul var1 (fmul (fdiv h2 (f64 262144)) inner)

/-- The last node of rule R134, with `var3` and `var4` in place. -/
def humResult (var2 h6 h7 t : Fp) : Fp :=
  fadd var2 (fmul (fadd (fdiv h6 (f64 16384)) (fmul (fdiv h7 (f64 2097152)) t)) (fmul var2 var2))

/-- The relative humidity of a raw sample, a calibration record and a temperature in degrees Celsius (rule R134). -/
def humidityPercent (raw : BitVec 16) (c : HCal) (t : Fp) : Fp :=
  humResult
    (humVar2 (humVar1 (f64 (u16 raw)) (f64 (u16 c.par_h1)) (f64 (s8 c.par_h3)) t) (f64 (u16 c.par_h2))
      (humInner (f64 (s8 c.par_h4)) (f64 (s8 c.par_h5)) t))
    (f64 (u8 c.par_h6)) (f64 (s8 c.par_h7)) t

/-- The value of a pressure calibration field (rule R16). -/
def PCal.value (c : PCal) (f : PcalField) : Int :=
  match f with
  | .p1 => u16 c.par_p1
  | .p2 => s16 c.par_p2
  | .p3 => s8 c.par_p3
  | .p4 => s16 c.par_p4
  | .p5 => s16 c.par_p5
  | .p6 => s8 c.par_p6
  | .p7 => s8 c.par_p7
  | .p8 => s16 c.par_p8
  | .p9 => s16 c.par_p9
  | .p10 => u8 c.par_p10

/-- The value of a pressure tree: each node one binary64 operation (rules R80, R136). -/
def pressEval (e : PressExpr) (raw : BitVec 32) (c : PCal) (t : Fp) : Fp :=
  match e with
  | .lit n => f64 n
  | .rawP => f64 (u32 raw)
  | .par f => f64 (c.value f)
  | .tfine => t
  | .add a b => fadd (pressEval a raw c t) (pressEval b raw c t)
  | .sub a b => fsub (pressEval a raw c t) (pressEval b raw c t)
  | .mul a b => fmul (pressEval a raw c t) (pressEval b raw c t)
  | .div a b => fdiv (pressEval a raw c t) (pressEval b raw c t)

/-- `PRESS_POLY(RAW_P, PCAL, TFINE)` (rule R136). -/
def pressurePascal (p : Params) (raw : BitVec 32) (c : PCal) (t : Fp) : Fp :=
  pressEval p.pressPoly raw c t

/-- CMP.TF (rule R131). -/
def execCmpTf (s : State) : Host.Outcome State Fault Refusal :=
  match s.rawT, s.tcal with
  | some r, some c => .next (deliverTfine (fineTemperature r c) s)
  | _, _ => .next (raiseInputNotValid .cmpTf s)

/-- CMP.TC (rule R132). -/
def execCmpTc (s : State) : Host.Outcome State Fault Refusal :=
  match s.tfine with
  | some t => .next (deliverTc (temperatureCelsius (Fp.ofBits t)) s)
  | none => .next (raiseInputNotValid .cmpTc s)

/-- CMP.H (rules R134, R135). -/
def execCmpH (s : State) : Host.Outcome State Fault Refusal :=
  match s.rawH, s.hcal, s.tc with
  | some r, some c, some t => .next (deliverHum (humidityPercent r c (Fp.ofBits t)) s)
  | _, _, _ => .next (raiseInputNotValid .cmpH s)

/-- CMP.P (rules R136, R139). -/
def execCmpP (s : State) : Host.Outcome State Fault Refusal :=
  match s.rawP, s.pcal, s.tfine with
  | some r, some c, some t => .next (deliverPress (pressurePascal s.params r c (Fp.ofBits t)) s)
  | _, _, _ => .next (raiseInputNotValid .cmpP s)

end Sys2Proof.Machine
end

