-- ==== Sys2Proof/Machine/Control.lean ====
section
/-!
DEFINITION. The control operations CLR.CYC, CLR.ALL and CLR.ERR (rules R100 to R104). None of them needs a valid
input and none can fault.
-/

namespace Sys2Proof.Machine

/-- CLR.CYC: the eight raw-sample cells, RAW_T, RAW_H, RAW_P, TFINE, TC, HUM and PRESS lose their values; the
calibration and the fault record stay (rule R100). -/
def execClrCyc (s : State) : Host.Outcome State Fault Refusal :=
  .next { s with
    img := Memory.clearRange s.img 0x1F 0x26
    rawT := none
    rawH := none
    rawP := none
    tfine := none
    tc := none
    hum := none
    press := none }

/-- CLR.ALL: every cell and register loses its value and the fault record is cleared (rule R101). -/
def execClrAll (s : State) : Host.Outcome State Fault Refusal :=
  .next (clearFault { s with
    img := Memory.clearRange s.img 0x00 0xFF
    tcal := none
    hcal := none
    pcal := none
    rawT := none
    rawH := none
    rawP := none
    tfine := none
    tc := none
    hum := none
    press := none })

/-- CLR.ERR: the fault record is cleared (rule R102). -/
def execClrErr (s : State) : Host.Outcome State Fault Refusal :=
  .next (clearFault s)

end Sys2Proof.Machine
end

