-- ==== Sys2Proof/Machine/RawAssembly.lean ====
section
/-!
DEFINITION. Raw sample assembly, ASM.T, ASM.H and ASM.P (rules R120 to R125): from the cells of one sample to its
register, or InputNotValid when a needed cell is not valid. The cells stay valid (rule R124) and no value is special
(rules R19, R125).
-/

namespace Sys2Proof.Machine

/-- ASM.T, cells 0x22, 0x23, 0x24 (rule R120). -/
def execAsmT (s : State) : Host.Outcome State Fault Refusal :=
  match readRaw20 s.img 0x22 0x23 0x24 with
  | some v => .next (writeRawT v s)
  | none => .next (raiseInputNotValid .asmT s)

/-- ASM.H, cells 0x25, 0x26 (rule R121). -/
def execAsmH (s : State) : Host.Outcome State Fault Refusal :=
  match readRaw16 s.img 0x25 0x26 with
  | some v => .next (writeRawH v s)
  | none => .next (raiseInputNotValid .asmH s)

/-- ASM.P, cells 0x1F, 0x20, 0x21 (rule R122). -/
def execAsmP (s : State) : Host.Outcome State Fault Refusal :=
  match readRaw20 s.img 0x1F 0x20 0x21 with
  | some v => .next (writeRawP v s)
  | none => .next (raiseInputNotValid .asmP s)

end Sys2Proof.Machine
end

