-- ==== Sys2Proof/Machine/Dispatch.lean ====
section
/-!
DEFINITION. The one dispatch from an operation to its meaning (rule R62).
-/

namespace Sys2Proof.Machine

def exec (i : Instr) (s : State) : Host.Outcome State Fault Refusal :=
  match i with
  | .clrCyc => Sys2Proof.Machine.execClrCyc s
  | .clrAll => Sys2Proof.Machine.execClrAll s
  | .clrErr => Sys2Proof.Machine.execClrErr s
  | .unpkT => Sys2Proof.Machine.execUnpkT s
  | .unpkH => Sys2Proof.Machine.execUnpkH s
  | .unpkP => Sys2Proof.Machine.execUnpkP s
  | .asmT => Sys2Proof.Machine.execAsmT s
  | .asmH => Sys2Proof.Machine.execAsmH s
  | .asmP => Sys2Proof.Machine.execAsmP s
  | .cmpTf => Sys2Proof.Machine.execCmpTf s
  | .cmpTc => Sys2Proof.Machine.execCmpTc s
  | .cmpH => Sys2Proof.Machine.execCmpH s
  | .cmpP => Sys2Proof.Machine.execCmpP s

end Sys2Proof.Machine
end

