-- ==== Sys2Proof/Machine/HostPort.lean ====
section
/-!
DEFINITION. The host's side of the block: the address map of rule R28, the value a read returns (rules R93, R94), the
effect of a write (rules R91, R92), the start of an operation by a write to CMD (rules R27, R63, R64), and the reset
step (rule R170). Each is one indivisible transaction (rules R51, R53).
-/

namespace Sys2Proof.Machine

/-- The data registers of rule R28, one per host address. -/
inductive DataReg where
  | t1 | t2 | t3
  | h1 | h2 | h3 | h4 | h5 | h6 | h7
  | p1 | p2 | p3 | p4 | p5 | p6 | p7 | p8 | p9 | p10
  | rawT | rawH | rawP
  | tfine | tc | hum | press
  deriving DecidableEq, Repr

/-- The host address of CMD (rule R27). -/
def cmdAddr : HostAddr := 0x101

/-- The host address of STATUS (rule R25). -/
def statusAddr : HostAddr := 0x100

/-- The host address of TFINE (rule R28). -/
def tfineAddr : HostAddr := 0x150

/-- The host address of TC (rule R28). -/
def tcAddr : HostAddr := 0x151

/-- The data register at a host address, by the table of rule R28; `none` for the image, STATUS, CMD and every
unmapped address. -/
def dataRegAt (h : HostAddr) : Option DataReg :=
  match h.toNat with
  | 0x110 => some .t1
  | 0x111 => some .t2
  | 0x112 => some .t3
  | 0x120 => some .h1
  | 0x121 => some .h2
  | 0x122 => some .h3
  | 0x123 => some .h4
  | 0x124 => some .h5
  | 0x125 => some .h6
  | 0x126 => some .h7
  | 0x130 => some .p1
  | 0x131 => some .p2
  | 0x132 => some .p3
  | 0x133 => some .p4
  | 0x134 => some .p5
  | 0x135 => some .p6
  | 0x136 => some .p7
  | 0x137 => some .p8
  | 0x138 => some .p9
  | 0x139 => some .p10
  | 0x140 => some .rawT
  | 0x141 => some .rawH
  | 0x142 => some .rawP
  | 0x150 => some .tfine
  | 0x151 => some .tc
  | 0x152 => some .hum
  | 0x153 => some .press
  | _ => none

/-- `hostval(X)` of a data register whose valid bit is 1, and `none` when it is 0: unsigned fields zero-extended,
signed fields sign-extended, binary64 registers as their pattern (rules R93, R94). -/
def hostVal (r : DataReg) (s : State) : Option Datum :=
  match r with
  | .t1 => s.tcal.map fun c => c.par_t1.setWidth 64
  | .t2 => s.tcal.map fun c => c.par_t2.signExtend 64
  | .t3 => s.tcal.map fun c => c.par_t3.signExtend 64
  | .h1 => s.hcal.map fun c => c.par_h1.setWidth 64
  | .h2 => s.hcal.map fun c => c.par_h2.setWidth 64
  | .h3 => s.hcal.map fun c => c.par_h3.signExtend 64
  | .h4 => s.hcal.map fun c => c.par_h4.signExtend 64
  | .h5 => s.hcal.map fun c => c.par_h5.signExtend 64
  | .h6 => s.hcal.map fun c => c.par_h6.setWidth 64
  | .h7 => s.hcal.map fun c => c.par_h7.signExtend 64
  | .p1 => s.pcal.map fun c => c.par_p1.setWidth 64
  | .p2 => s.pcal.map fun c => c.par_p2.signExtend 64
  | .p3 => s.pcal.map fun c => c.par_p3.signExtend 64
  | .p4 => s.pcal.map fun c => c.par_p4.signExtend 64
  | .p5 => s.pcal.map fun c => c.par_p5.signExtend 64
  | .p6 => s.pcal.map fun c => c.par_p6.signExtend 64
  | .p7 => s.pcal.map fun c => c.par_p7.signExtend 64
  | .p8 => s.pcal.map fun c => c.par_p8.signExtend 64
  | .p9 => s.pcal.map fun c => c.par_p9.signExtend 64
  | .p10 => s.pcal.map fun c => c.par_p10.setWidth 64
  | .rawT => s.rawT.map fun v => v.setWidth 64
  | .rawH => s.rawH.map fun v => v.setWidth 64
  | .rawP => s.rawP.map fun v => v.setWidth 64
  | .tfine => s.tfine
  | .tc => s.tc
  | .hum => s.hum
  | .press => s.press

/-- What `RD(h)` finds: the datum of an answer with `ok = 1`, or `none` for `ok = 0` (rule R93). -/
def readPort (h : HostAddr) (s : State) : Option Datum :=
  if h.toNat ≤ 0x0FF then (Memory.read s.img h.toNat).map fun b => b.setWidth 64
  else if h = statusAddr then some (statusWord s)
  else
    match dataRegAt h with
    | some r => hostVal r s
    | none => none

/-- `RD(h)`: the answer goes to the host and nothing in the block changes; the datum that comes with `ok = 0` is a
free value (rules R51, R90, R93). -/
def hostRead (h : HostAddr) (s : State) : State :=
  match readPort h s with
  | some d => { s with answers := { ok := true, datum := d } :: s.answers }
  | none =>
    { s with
      draws := s.draws + 1
      answers := { ok := false, datum := Config.freeDatum s.draws } :: s.answers }

/-- The operation a write to CMD starts: decoded first, so that an illegal opcode raises IllegalOperation without any
input being examined (rules R27, R64, R154, R159). -/
def startOperation (op : Opcode) (s : State) : Host.Outcome State Fault Refusal :=
  match decode op with
  | some i => exec i s
  | none => .next (raiseFault .illegalOperation (op.setWidth 12) s)

/-- `WR(h, d)` (rules R91, R92). -/
def hostWrite (h : HostAddr) (d : Datum) (s : State) : Host.Outcome State Fault Refusal :=
  if h.toNat ≤ 0x0FF then .next (storeCell h.toNat (d.setWidth 8) s)
  else if h = cmdAddr then startOperation (opcodeOfDatum d) s
  else if h = tfineAddr then .next (writeTfine d s)
  else if h = tcAddr then .next (writeTc d s)
  else .next (raiseFault .badHostAccess h s)

/-- One event of the host, whole and indivisible (rules R53, R90, R170). -/
def perform (e : HostEvent) (s : State) : Host.Outcome State Fault Refusal :=
  match e with
  | .write h d => hostWrite h d s
  | .read h => .next (hostRead h s)
  | .reset => .next (resetBlock s)

/-- The write that starts the operation with the opcode bits `w`: `WR 0x101, w` (rules R27, R67). -/
def commandWrite (w : Nat) : HostEvent :=
  .write cmdAddr (BitVec.ofNat 64 w)

end Sys2Proof.Machine
end

