-- ==== Sys2Proof/Machine/Step.lean ====
section
/-!
DEFINITION. One step of the machine: the host's next transaction, taken from the list that State holds, performed
whole (rules R8, R53). With no transaction pending the block holds its state and does nothing (rule R166).
-/

namespace Sys2Proof.Machine

/-- One step (rules R8, R53, R166; assumption log, entry 8). -/
def step (s : State) : Host.Outcome State Fault Refusal :=
  match s.pending with
  | [] => .next s
  | e :: rest => perform e { s with pending := rest }

/-- `s` with the host's write of the instruction's bits to CMD put before its other transactions, so that the next
step runs exactly that instruction (rule R27; assumption log, entry 8). -/
def State.withFetchWord (s : State) (nbits w : Nat) : State :=
  { s with pending := commandWrite (w % 2 ^ nbits) :: s.pending }

end Sys2Proof.Machine
end

