-- ==== Sys2Proof/WellFormed.lean ====
section
/-!
DEFINITION. Which pieces of syntax are well formed. An operation has no fields (rule R61), so every `Instr` is. The
syntax that can be ill formed is the block's parameters: a pressure map is admissible by rule R114, and a pressure
tree contains the term that rule R137 lets a model assume.
-/

namespace Sys2Proof

/-- Every operation is well formed: it has no register, address or immediate field that could be out of range
(rule R61). -/
def Instr.wf (i : Instr) : Bool :=
  match i with
  | .clrCyc | .clrAll | .clrErr => true
  | .unpkT | .unpkH | .unpkP => true
  | .asmT | .asmH | .asmP => true
  | .cmpTf | .cmpTc | .cmpH | .cmpP => true

/-- The sixteen image cells a pressure map names, in the order of the fields (rule R114: `needed`). -/
def PcalMap.cells (m : PcalMap) : List (BitVec 8) :=
  [m.par_p1.lsb, m.par_p1.msb, m.par_p2.lsb, m.par_p2.msb, m.par_p3, m.par_p4.lsb, m.par_p4.msb,
   m.par_p5.lsb, m.par_p5.msb, m.par_p6, m.par_p7, m.par_p8.lsb, m.par_p8.msb, m.par_p9.lsb, m.par_p9.msb,
   m.par_p10]

/-- Rule R114: the map keeps par_p1 at 0x8E/0x8F. -/
def PcalMap.keepsP1 (m : PcalMap) : Bool :=
  m.par_p1 == ⟨0x8E#8, 0x8F#8⟩

/-- Rule R114: the map keeps par_p10 at 0xA0. -/
def PcalMap.keepsP10 (m : PcalMap) : Bool :=
  m.par_p10 == 0xA0#8

/-- Rule R114: the sixteen addresses are distinct. -/
def PcalMap.distinct (m : PcalMap) : Bool :=
  decide m.cells.Nodup

/-- Rule R114: the sixteen addresses lie inside 0x8E..0xA0. -/
def PcalMap.inRange (m : PcalMap) : Bool :=
  m.cells.all fun a => decide (0x8E ≤ a.toNat) && decide (a.toNat ≤ 0xA0)

/-- Rule R114: par_p7 is at a lower address than par_p6. -/
def PcalMap.p7BelowP6 (m : PcalMap) : Bool :=
  decide (m.par_p7.toNat < m.par_p6.toNat)

/-- A map is admissible (rule R114). -/
def PcalMap.wf (m : PcalMap) : Bool :=
  m.keepsP1 && m.keepsP10 && m.distinct && m.inRange && m.p7BelowP6

/-- The tree contains the term `1048576 - rawPress` (rules R136, R137). -/
def PressExpr.hasRawTerm (e : PressExpr) : Bool :=
  match e with
  | .lit _ => false
  | .rawP => false
  | .par _ => false
  | .tfine => false
  | .add a b => a.hasRawTerm || b.hasRawTerm
  | .sub a b => (a == .lit 1048576 && b == .rawP) || a.hasRawTerm || b.hasRawTerm
  | .mul a b => a.hasRawTerm || b.hasRawTerm
  | .div a b => a.hasRawTerm || b.hasRawTerm

/-- The parameters are admissible: the map by rule R114, the tree by rule R137. -/
def Params.wf (p : Params) : Bool :=
  p.pcalMap.wf && p.pressPoly.hasRawTerm

end Sys2Proof
end

