-- ==== Sys2Proof/Safety.lean ====
section
/-!
DEFINITION. The terms in which claims speak: the sameness of images, the canonical form of a state, a consistent
fault record, a result that stands in a register, results that are not stale, and the host addresses that cannot be
written.
-/

namespace Sys2Proof.Machine

/-- Every cell reads in `t` what it reads in `s`, value and valid bit (rule R13). -/
def SameImage (s t : State) : Prop :=
  ∀ a : Nat, Memory.read t.img a = Memory.read s.img a

/-- The model's own fields but the count of draws are the same: the parameters, the host's pending transactions and
the answers. -/
def SameOwnFields (s t : State) : Prop :=
  t.params = s.params ∧ t.pending = s.pending ∧ t.answers = s.answers

/-- The fault record is the same (rule R25). -/
def SameFaultRecord (s t : State) : Prop :=
  t.err = s.err ∧ t.ecode = s.ecode ∧ t.einfo = s.einfo

/-- The three calibration records are the same, values and valid bits. -/
def SameCalibration (s t : State) : Prop :=
  t.tcal = s.tcal ∧ t.hcal = s.hcal ∧ t.pcal = s.pcal

/-- The three raw sample registers are the same, values and valid bits. -/
def SameRawSamples (s t : State) : Prop :=
  t.rawT = s.rawT ∧ t.rawH = s.rawH ∧ t.rawP = s.rawP

/-- The four binary64 registers are the same, values and valid bits. -/
def SameResults (s t : State) : Prop :=
  t.tfine = s.tfine ∧ t.tc = s.tc ∧ t.hum = s.hum ∧ t.press = s.press

/-- The containers hold what rules R12, R15 and R18 allow: the image in its canonical form, par_h1 and par_h2 below
4096, RAW_T and RAW_P below 2^20. -/
def State.Canonical (s : State) : Prop :=
  Memory.wf s.img = true
    ∧ (∀ c, s.hcal = some c → c.par_h1.toNat < 4096 ∧ c.par_h2.toNat < 4096)
    ∧ (∀ v, s.rawT = some v → v.toNat < 1048576)
    ∧ (∀ v, s.rawP = some v → v.toNat < 1048576)

/-- A host address at which `WR` raises BadHostAccess: above the image and none of CMD, TFINE and TC (rules R91,
R92). -/
def unwritable (h : HostAddr) : Bool :=
  decide (0x0FF < h.toNat) && h != 0x101#12 && h != 0x150#12 && h != 0x151#12

/-- The ten operations that need valid inputs (rules R153, R155). -/
def needsInputs (i : Instr) : Bool :=
  match i with
  | .clrCyc | .clrAll | .clrErr => false
  | .unpkT | .unpkH | .unpkP | .asmT | .asmH | .asmP | .cmpTf | .cmpTc | .cmpH | .cmpP => true

/-- The fault record is one that rules R25 and R153 allow: cleared, or the code and information of one of the three
faults; ECODE 4 to 7 never stand in it. -/
def State.RecordConsistent (s : State) : Prop :=
  (s.err = false ∧ s.ecode = 0#3 ∧ s.einfo = 0#12)
    ∨ (s.err = true ∧ s.ecode = 1#3 ∧ ∃ op : Opcode, decode op = none ∧ s.einfo = op.setWidth 12)
    ∨ (s.err = true ∧ s.ecode = 2#3 ∧ ∃ i : Instr, needsInputs i = true ∧ s.einfo = (encode i).setWidth 12)
    ∨ (s.err = true ∧ s.ecode = 3#3 ∧ unwritable s.einfo = true)

/-- The pattern `v` is the delivered form of the datum `x`: its own pattern, or any quiet NaN for a NaN (rules R79,
R83). -/
def isResult (x : Fp) (v : Bits64) : Bool :=
  match x with
  | .nan => isQuietNaN v
  | .inf s => v == Fp.toBits 0#64 (.inf s)
  | .fin s m => v == Fp.toBits 0#64 (.fin s m)

/-- A valid HUM is the humidity of the RAW_H, HCAL and TC that stand in their registers now (rule R24 a). -/
def State.HumFresh (s : State) : Prop :=
  ∀ v, s.hum = some v →
    ∃ r c t, s.rawH = some r ∧ s.hcal = some c ∧ s.tc = some t
      ∧ isResult (humidityPercent r c (Fp.ofBits t)) v = true

/-- A valid PRESS is the pressure of the RAW_P, PCAL and TFINE that stand in their registers now (rule R24 b). -/
def State.PressFresh (s : State) : Prop :=
  ∀ v, s.press = some v →
    ∃ r c t, s.rawP = some r ∧ s.pcal = some c ∧ s.tfine = some t
      ∧ isResult (pressurePascal s.params r c (Fp.ofBits t)) v = true

/-- No result is stale (rules R23, R24 a and b). -/
def State.Fresh (s : State) : Prop :=
  s.HumFresh ∧ s.PressFresh

/-- The state with another fault record. -/
def State.withRecord (s : State) (e : Bool) (c : BitVec 3) (f : BitVec 12) : State :=
  { s with err := e, ecode := c, einfo := f }

/-- The number a finite datum stands for, in multiples of 2^-1074; 0 for an infinity or a NaN, of which it is never
used. -/
def Fp.whole (x : Fp) : Int :=
  match x with
  | .nan => 0
  | .inf _ => 0
  | .fin s m => signedMag s m

/-- A datum is a finite number. -/
def Fp.isFinite (x : Fp) : Bool :=
  match x with
  | .nan => false
  | .inf _ => false
  | .fin _ _ => true

/-- `s8` of a number below 256 (rule R6). -/
def signed8 (n : Nat) : Int :=
  if n < 128 then n else (n : Int) - 256

/-- `s16` of a number below 65536 (rule R6). -/
def signed16 (n : Nat) : Int :=
  if n < 32768 then n else (n : Int) - 65536

/-- The number two cells of a calibration pair stand for, `first` and `second` in the order in which the rules name
them, least significant first (rules R43, R71). -/
def pairNat (p : Params) (first second : Byte) : Nat :=
  if p.cal16LsbFirst then second.toNat * 256 + first.toNat else first.toNat * 256 + second.toNat

/-- Every input of the operation holds a value: the exact input sets of rule R155. -/
def InputsValid (i : Instr) (s : State) : Prop :=
  match i with
  | .clrCyc => True
  | .clrAll => True
  | .clrErr => True
  | .unpkT => ∀ a ∈ [0xE9, 0xEA, 0x8A, 0x8B, 0x8C], (Memory.read s.img a).isSome = true
  | .unpkH => ∀ a : Nat, 0xE1 ≤ a → a ≤ 0xE8 → (Memory.read s.img a).isSome = true
  | .unpkP => ∀ a ∈ s.params.pcalMap.cells, (Memory.read s.img a.toNat).isSome = true
  | .asmT => ∀ a ∈ [0x22, 0x23, 0x24], (Memory.read s.img a).isSome = true
  | .asmH => ∀ a ∈ [0x25, 0x26], (Memory.read s.img a).isSome = true
  | .asmP => ∀ a ∈ [0x1F, 0x20, 0x21], (Memory.read s.img a).isSome = true
  | .cmpTf => s.rawT.isSome = true ∧ s.tcal.isSome = true
  | .cmpTc => s.tfine.isSome = true
  | .cmpH => s.rawH.isSome = true ∧ s.hcal.isSome = true ∧ s.tc.isSome = true
  | .cmpP => s.rawP.isSome = true ∧ s.pcal.isSome = true ∧ s.tfine.isSome = true

/-- The valid bit of the register an operation writes (rules R14 to R20); a control operation writes none. -/
def destinationValid (i : Instr) (s : State) : Bool :=
  match i with
  | .clrCyc => true
  | .clrAll => true
  | .clrErr => true
  | .unpkT => s.tcal.isSome
  | .unpkH => s.hcal.isSome
  | .unpkP => s.pcal.isSome
  | .asmT => s.rawT.isSome
  | .asmH => s.rawH.isSome
  | .asmP => s.rawP.isSome
  | .cmpTf => s.tfine.isSome
  | .cmpTc => s.tc.isSome
  | .cmpH => s.hum.isSome
  | .cmpP => s.press.isSome

/-- The state after `raise F(info)`, written out (rule R152): the three STATUS fields if none was recorded. -/
def recorded (code : BitVec 3) (info : BitVec 12) (s : State) : State :=
  if s.err = true then s else s.withRecord true code info

/-- A read of `h` answers `ok = 1` with the unsigned value `n` (rules R93, R94). -/
def ReadsUnsigned (h : HostAddr) (n : Nat) (s : State) : Prop :=
  ∃ d, readPort h s = some d ∧ d.toNat = n

/-- A read of `h` answers `ok = 1` with the two's complement value `z` (rules R93, R94). -/
def ReadsSigned (h : HostAddr) (z : Int) (s : State) : Prop :=
  ∃ d, readPort h s = some d ∧ d.toInt = z

/-- The answer `(1, d)` given, and nothing else changed (rules R90, R93). -/
def answered (d : Datum) (s : State) : State :=
  { s with answers := { ok := true, datum := d } :: s.answers }

/-- `t` is `s` with the answer `ok = 0` given and nothing else of the block changed: the datum is a free value, of
which one more has been drawn (rules R90, R93; assumption log, entry 7). -/
def AnsweredInvalid (s t : State) : Prop :=
  ∃ d, t = { s with draws := s.draws + 1, answers := { ok := false, datum := d } :: s.answers }

/-- Two delivered patterns are the same, or both are quiet NaNs (rules R79, R140). -/
def SameDelivered (v w : Bits64) : Prop :=
  v = w ∨ (isQuietNaN v = true ∧ isQuietNaN w = true)

/-- The all-zero humidity calibration record. -/
def zeroHcal : HCal :=
  { par_h1 := 0#16, par_h2 := 0#16, par_h3 := 0#8, par_h4 := 0#8, par_h5 := 0#8, par_h6 := 0#8, par_h7 := 0#8 }

/-- The all-zero pressure calibration record. -/
def zeroPcal : PCal :=
  { par_p1 := 0#16, par_p2 := 0#16, par_p3 := 0#8, par_p4 := 0#16, par_p5 := 0#16, par_p6 := 0#8, par_p7 := 0#8,
    par_p8 := 0#16, par_p9 := 0#16, par_p10 := 0#8 }

/-- The numerator of the exact fine temperature over 2^34: with `n = RAW_T - 16 * par_t1` it is
`n * par_t2 * 2^20 + n^2 * par_t3 * 16` (rules R82 b, R131). -/
def fineNumerator (raw : BitVec 32) (c : TCal) : Int :=
  ((raw.toNat : Int) - 16 * c.par_t1.toNat) * s16 c.par_t2 * 1048576
    + ((raw.toNat : Int) - 16 * c.par_t1.toNat) * ((raw.toNat : Int) - 16 * c.par_t1.toNat) * (s8 c.par_t3 * 16)

end Sys2Proof.Machine
end

