-- ==== Sys2Proof/Certificates/Slice0/Obligations.lean ====
section
/-!
DEFINITION. The statements for the provers, one definition each. Every docstring names the rule or section of spec/
it formalises; where a clause rests on the model's own choice, on the spec's own inference or on a parameter's
default, the docstring says so and names the log entry or the sentence.
-/

open Sys2Proof
open Sys2Proof.Machine

/-! ### Encoding and the start of an operation -/

/-- Rule R63 with the thirteen values of rule R62: a word decodes to an operation exactly when it is that
operation's opcode. -/
def Obligations.DecodingMatchesTheThirteenOpcodes : Prop :=
  (encode .clrCyc = 0x01#8 ∧ encode .clrAll = 0x02#8 ∧ encode .clrErr = 0x03#8
    ∧ encode .unpkT = 0x10#8 ∧ encode .unpkH = 0x11#8 ∧ encode .unpkP = 0x12#8
    ∧ encode .asmT = 0x20#8 ∧ encode .asmH = 0x21#8 ∧ encode .asmP = 0x22#8
    ∧ encode .cmpTf = 0x30#8 ∧ encode .cmpTc = 0x31#8 ∧ encode .cmpH = 0x32#8 ∧ encode .cmpP = 0x33#8)
    ∧ ∀ (op : Opcode) (i : Instr), decode op = some i ↔ op = encode i

/-- Rule R64: writing one of the 243 unlisted opcode values to CMD raises IllegalOperation and changes nothing
else. -/
def Obligations.IllegalOpcodeRaisesIllegalOperation : Prop :=
  ∀ (s : State) (d : Datum),
    ((d.setWidth 8).toNat = 0x00 ∨ (0x04 ≤ (d.setWidth 8).toNat ∧ (d.setWidth 8).toNat ≤ 0x0F)
      ∨ (0x13 ≤ (d.setWidth 8).toNat ∧ (d.setWidth 8).toNat ≤ 0x1F)
      ∨ (0x23 ≤ (d.setWidth 8).toNat ∧ (d.setWidth 8).toNat ≤ 0x2F)
      ∨ 0x34 ≤ (d.setWidth 8).toNat) →
    perform (.write 0x101#12 d) s = .next (recorded 1#3 ((d.setWidth 8).setWidth 12) s)

/-- Rule R65: bits 63:8 of the datum written to CMD are ignored. -/
def Obligations.CommandIgnoresUpperBits : Prop :=
  (∀ (s : State) (d : Datum),
    perform (.write 0x101#12 d) s = perform (.write 0x101#12 ((d.setWidth 8).setWidth 64)) s)
    ∧ ∀ s : State, perform (.write 0x101#12 0x1FF10#64) s = exec .unpkT s

/-- 00_scope.md section 6 (agents), 60_exceptions.md section 7 (no step of the block's own): a step performs the
host's first pending transaction whole; a write to CMD whose bits 7:0 are an operation's opcode runs exactly that
operation; with nothing pending nothing changes. That the transactions stand in State is the model's choice (log
entry 8). -/
def Obligations.StepRunsTheDecodedOperation : Prop :=
  (∀ (s : State) (d : Datum) (rest : List HostEvent) (i : Instr),
    s.pending = .write 0x101#12 d :: rest → decode (d.setWidth 8) = some i →
      step s = exec i { s with pending := rest })
    ∧ (∀ (s : State) (e : HostEvent) (rest : List HostEvent),
      s.pending = e :: rest → step s = perform e { s with pending := rest })
    ∧ ∀ s : State, s.pending = [] → step s = .next s

/-- The word the host of this package places with `withFetchWord` is the one the next step runs (log entry 8). -/
def Obligations.PlacedWordRunsNext : Prop :=
  ∀ (s : State) (w : Nat) (i : Instr),
    decodeTableWord 8 w = some i → step (s.withFetchWord 8 w) = exec i s

/-! ### Host transactions -/

/-- Rule R91, clause by clause: what `WR(h, d)` does at each target. -/
def Obligations.HostWriteByTarget : Prop :=
  ∀ (s : State) (h : HostAddr) (d : Datum),
    (h.toNat ≤ 0x0FF →
      ∃ t, perform (.write h d) s = .next t ∧ Memory.read t.img h.toNat = some (d.setWidth 8)
        ∧ (∀ a : Nat, a ≠ h.toNat → Memory.read t.img a = Memory.read s.img a)
        ∧ t = { s with img := t.img })
    ∧ (h = 0x101#12 →
      (∀ i, decode (d.setWidth 8) = some i → perform (.write h d) s = exec i s)
        ∧ (decode (d.setWidth 8) = none →
          perform (.write h d) s = .next (recorded 1#3 ((d.setWidth 8).setWidth 12) s)))
    ∧ (h = 0x150#12 →
      perform (.write h d) s = .next { s with tfine := some d, tc := none, hum := none, press := none })
    ∧ (h = 0x151#12 → perform (.write h d) s = .next { s with tc := some d, hum := none })
    ∧ (0x0FF < h.toNat → h ≠ 0x101#12 → h ≠ 0x150#12 → h ≠ 0x151#12 →
      perform (.write h d) s = .next (recorded 3#3 h s))

/-- Rule R92: the addresses at which a write raises BadHostAccess, and that it has no other effect. -/
def Obligations.WriteToReadOnlyOrUnmappedIsRefused : Prop :=
  ∀ (s : State) (h : HostAddr) (d : Datum),
    (h.toNat = 0x100
      ∨ (0x110 ≤ h.toNat ∧ h.toNat ≤ 0x112) ∨ (0x120 ≤ h.toNat ∧ h.toNat ≤ 0x126)
      ∨ (0x130 ≤ h.toNat ∧ h.toNat ≤ 0x139) ∨ (0x140 ≤ h.toNat ∧ h.toNat ≤ 0x142)
      ∨ h.toNat = 0x152 ∨ h.toNat = 0x153
      ∨ (0x102 ≤ h.toNat ∧ h.toNat ≤ 0x10F) ∨ (0x113 ≤ h.toNat ∧ h.toNat ≤ 0x11F)
      ∨ (0x127 ≤ h.toNat ∧ h.toNat ≤ 0x12F) ∨ (0x13A ≤ h.toNat ∧ h.toNat ≤ 0x13F)
      ∨ (0x143 ≤ h.toNat ∧ h.toNat ≤ 0x14F) ∨ 0x154 ≤ h.toNat) →
    perform (.write h d) s = .next (recorded 3#3 h s)

/-- 41_host_interface.md section 1, "`RD(h)` by target": what a read answers at each target; nothing of the block
changes and nothing faults. The form of an answer is the model's choice and no rule of the spec: the answer is put in
front of the list `answers` (log entry 9), and with `ok = 0` the datum is a free value, for which the count `draws`
advances by one (log entry 7). Which addresses name a data register is `dataRegAt`, the host address table of
10_state.md section 7. -/
def Obligations.HostReadByTarget : Prop :=
  ∀ (s : State) (h : HostAddr),
    ∃ t, perform (.read h) s = .next t
      ∧ (h.toNat ≤ 0x0FF →
        (∀ b, Memory.read s.img h.toNat = some b → t = answered (b.setWidth 64) s)
          ∧ (Memory.read s.img h.toNat = none → AnsweredInvalid s t))
      ∧ (h = 0x100#12 → t = answered (statusWord s) s)
      ∧ (∀ r, dataRegAt h = some r →
        (∀ d, hostVal r s = some d → t = answered d s) ∧ (hostVal r s = none → AnsweredInvalid s t))
      ∧ (0x0FF < h.toNat → h ≠ 0x100#12 → dataRegAt h = none → AnsweredInvalid s t)

/-- Rule R94: the form in which each data register is read: unsigned fields zero-extended, signed fields
sign-extended, binary64 registers as their pattern; at the addresses of rule R28. -/
def Obligations.HostValueForms : Prop :=
  ∀ s : State,
    (∀ c, s.tcal = some c →
      ReadsUnsigned 0x110#12 c.par_t1.toNat s ∧ ReadsSigned 0x111#12 (s16 c.par_t2) s
        ∧ ReadsSigned 0x112#12 (s8 c.par_t3) s)
    ∧ (∀ c, s.hcal = some c →
      ReadsUnsigned 0x120#12 c.par_h1.toNat s ∧ ReadsUnsigned 0x121#12 c.par_h2.toNat s
        ∧ ReadsSigned 0x122#12 (s8 c.par_h3) s ∧ ReadsSigned 0x123#12 (s8 c.par_h4) s
        ∧ ReadsSigned 0x124#12 (s8 c.par_h5) s ∧ ReadsUnsigned 0x125#12 c.par_h6.toNat s
        ∧ ReadsSigned 0x126#12 (s8 c.par_h7) s)
    ∧ (∀ c, s.pcal = some c →
      ReadsUnsigned 0x130#12 c.par_p1.toNat s ∧ ReadsSigned 0x131#12 (s16 c.par_p2) s
        ∧ ReadsSigned 0x132#12 (s8 c.par_p3) s ∧ ReadsSigned 0x133#12 (s16 c.par_p4) s
        ∧ ReadsSigned 0x134#12 (s16 c.par_p5) s ∧ ReadsSigned 0x135#12 (s8 c.par_p6) s
        ∧ ReadsSigned 0x136#12 (s8 c.par_p7) s ∧ ReadsSigned 0x137#12 (s16 c.par_p8) s
        ∧ ReadsSigned 0x138#12 (s16 c.par_p9) s ∧ ReadsUnsigned 0x139#12 c.par_p10.toNat s)
    ∧ (∀ v, s.rawT = some v → ReadsUnsigned 0x140#12 v.toNat s)
    ∧ (∀ v, s.rawH = some v → ReadsUnsigned 0x141#12 v.toNat s)
    ∧ (∀ v, s.rawP = some v → ReadsUnsigned 0x142#12 v.toNat s)
    ∧ (∀ v, s.tfine = some v → readPort 0x150#12 s = some v)
    ∧ (∀ v, s.tc = some v → readPort 0x151#12 s = some v)
    ∧ (∀ v, s.hum = some v → readPort 0x152#12 s = some v)
    ∧ (∀ v, s.press = some v → readPort 0x153#12 s = some v)

/-- 10_state.md section 7, the table of STATUS: every field at its bits, the valid bits live, the reserved bits 0. -/
def Obligations.StatusWordFields : Prop :=
  ∀ s : State,
    (statusWord s).getLsbD 0 = s.err ∧ (statusWord s).extractLsb' 1 3 = s.ecode
      ∧ (statusWord s).getLsbD 4 = s.tcal.isSome ∧ (statusWord s).getLsbD 5 = s.hcal.isSome
      ∧ (statusWord s).getLsbD 6 = s.pcal.isSome ∧ (statusWord s).getLsbD 7 = s.rawT.isSome
      ∧ (statusWord s).getLsbD 8 = s.rawH.isSome ∧ (statusWord s).getLsbD 9 = s.rawP.isSome
      ∧ (statusWord s).getLsbD 10 = s.tfine.isSome ∧ (statusWord s).getLsbD 11 = s.tc.isSome
      ∧ (statusWord s).getLsbD 12 = s.hum.isSome ∧ (statusWord s).getLsbD 13 = s.press.isSome
      ∧ (statusWord s).extractLsb' 14 2 = 0#2 ∧ (statusWord s).extractLsb' 16 12 = s.einfo
      ∧ (statusWord s).extractLsb' 28 36 = 0#36

/-! ### Faults -/

/-- Rule R152 with the codes of rule R153: the first fault since the last clear is recorded, a later one is not, and
nothing else of the state changes. -/
def Obligations.FaultEntryRecordsTheFirstFault : Prop :=
  FaultKind.code .illegalOperation = 1#3 ∧ FaultKind.code .inputNotValid = 2#3
    ∧ FaultKind.code .badHostAccess = 3#3
    ∧ ∀ (f : FaultKind) (info : BitVec 12) (s : State),
      (s.err = false → raiseFault f info s = { s with err := true, ecode := f.code, einfo := info })
        ∧ (s.err = true → raiseFault f info s = s)

/-- Rule R155: an operation raises InputNotValid, with its opcode in EINFO and no other effect, when a member of its
exact input set is not valid, and only then; otherwise it completes with its destination valid and no fault
recorded. -/
def Obligations.MissingInputRaisesInputNotValid : Prop :=
  ∀ (i : Instr) (s : State),
    (¬ InputsValid i s → exec i s = .next (recorded 2#3 ((encode i).setWidth 12) s))
      ∧ (InputsValid i s → needsInputs i = true →
        ∃ t, exec i s = .next t ∧ SameFaultRecord s t ∧ destinationValid i t = true)

/-- Rule R157: whatever fault record stands, every operation and every host transaction does the same to everything
but the record; only a read of STATUS sees the record. -/
def Obligations.FaultRecordDoesNotStopTheBlock : Prop :=
  ∀ (s : State) (e : Bool) (c : BitVec 3) (f : BitVec 12),
    (∀ (i : Instr) (t : State), exec i s = .next t →
      ∃ t', exec i (s.withRecord e c f) = .next t'
        ∧ t'.withRecord false 0#3 0#12 = t.withRecord false 0#3 0#12)
    ∧ (∀ (h : HostAddr) (d : Datum) (t : State), perform (.write h d) s = .next t →
      ∃ t', perform (.write h d) (s.withRecord e c f) = .next t'
        ∧ t'.withRecord false 0#3 0#12 = t.withRecord false 0#3 0#12)
    ∧ (∀ h : HostAddr, h ≠ 0x100#12 → readPort h (s.withRecord e c f) = readPort h s)

/-! ### Control operations -/

/-- Rule R100: CLR.CYC takes the values of the eight raw-sample cells and of the seven per-cycle registers and
changes nothing else; it cannot fault. -/
def Obligations.ClrCycEndsTheCycle : Prop :=
  ∀ s : State, ∃ t, exec .clrCyc s = .next t
    ∧ (∀ a : Nat, 0x1F ≤ a → a ≤ 0x26 → Memory.read t.img a = none)
    ∧ (∀ a : Nat, (a < 0x1F ∨ 0x26 < a) → Memory.read t.img a = Memory.read s.img a)
    ∧ t = { s with
        img := t.img, rawT := none, rawH := none, rawP := none
        tfine := none, tc := none, hum := none, press := none }

/-- Rule R101: CLR.ALL takes every value and clears the fault record; on an image in its canonical form the state is
the reset state. -/
def Obligations.ClrAllReturnsToReset : Prop :=
  ∀ s : State,
    (∃ t, exec .clrAll s = .next t ∧ (∀ a : Nat, a ≤ 0xFF → Memory.read t.img a = none)
      ∧ t = { State.reset with
          img := t.img, params := s.params, draws := s.draws, pending := s.pending, answers := s.answers })
    ∧ (Memory.wf s.img = true →
      exec .clrAll s = .next { State.reset with
        params := s.params, draws := s.draws, pending := s.pending, answers := s.answers })

/-- Rule R102: CLR.ERR clears ERR, ECODE and EINFO and changes nothing else. -/
def Obligations.ClrErrClearsTheRecordOnly : Prop :=
  ∀ s : State, exec .clrErr s = .next { s with err := false, ecode := 0#3, einfo := 0#12 }

/-! ### Calibration unpacking -/

/-- Rule R111: the record UNPK.T builds from its five cells, in the byte order that CAL16_LSB_FIRST gives, what it
invalidates, and that nothing else changes; InputNotValid when a cell is missing. -/
def Obligations.UnpackTemperatureRecord : Prop :=
  (∀ (s : State) (bE9 bEA b8A b8B b8C : Byte),
    Memory.read s.img 0xE9 = some bE9 → Memory.read s.img 0xEA = some bEA →
    Memory.read s.img 0x8A = some b8A → Memory.read s.img 0x8B = some b8B →
    Memory.read s.img 0x8C = some b8C →
    ∃ r : TCal,
      exec .unpkT s = .next { s with
        tcal := some r, tfine := none, tc := none, hum := none, press := none }
      ∧ u16 r.par_t1 = pairNat s.params bE9 bEA
      ∧ s16 r.par_t2 = signed16 (pairNat s.params b8A b8B)
      ∧ s8 r.par_t3 = signed8 b8C.toNat)
  ∧ ∀ s : State, ¬ InputsValid .unpkT s → exec .unpkT s = .next (recorded 2#3 0x010#12 s)

/-- Rule R112: the record UNPK.H builds from its eight cells, what it invalidates, and that nothing else changes;
InputNotValid when a cell is missing. -/
def Obligations.UnpackHumidityRecord : Prop :=
  (∀ (s : State) (bE1 bE2 bE3 bE4 bE5 bE6 bE7 bE8 : Byte),
    Memory.read s.img 0xE1 = some bE1 → Memory.read s.img 0xE2 = some bE2 →
    Memory.read s.img 0xE3 = some bE3 → Memory.read s.img 0xE4 = some bE4 →
    Memory.read s.img 0xE5 = some bE5 → Memory.read s.img 0xE6 = some bE6 →
    Memory.read s.img 0xE7 = some bE7 → Memory.read s.img 0xE8 = some bE8 →
    ∃ r : HCal,
      exec .unpkH s = .next { s with hcal := some r, hum := none }
      ∧ u16 r.par_h1 = bE3.toNat * 16 + bE2.toNat % 16
      ∧ u16 r.par_h2 = bE1.toNat * 16 + bE2.toNat / 16
      ∧ s8 r.par_h3 = signed8 bE4.toNat ∧ s8 r.par_h4 = signed8 bE5.toNat
      ∧ s8 r.par_h5 = signed8 bE6.toNat ∧ u8 r.par_h6 = bE7.toNat ∧ s8 r.par_h7 = signed8 bE8.toNat)
  ∧ ∀ s : State, ¬ InputsValid .unpkH s → exec .unpkH s = .next (recorded 2#3 0x011#12 s)

/-- Rule R113 with the default PCAL_MAP and CAL16_LSB_FIRST = true, both taken as hypotheses;
InputNotValid when one of the sixteen cells is missing. -/
def Obligations.UnpackPressureRecordDefaultMap : Prop :=
  (∀ (s : State) (b8E b8F b90 b91 b92 b94 b95 b96 b97 b98 b99 b9C b9D b9E b9F bA0 : Byte),
    s.params.pcalMap = pcalMapDefault → s.params.cal16LsbFirst = true →
    Memory.read s.img 0x8E = some b8E → Memory.read s.img 0x8F = some b8F →
    Memory.read s.img 0x90 = some b90 → Memory.read s.img 0x91 = some b91 →
    Memory.read s.img 0x92 = some b92 → Memory.read s.img 0x94 = some b94 →
    Memory.read s.img 0x95 = some b95 → Memory.read s.img 0x96 = some b96 →
    Memory.read s.img 0x97 = some b97 → Memory.read s.img 0x98 = some b98 →
    Memory.read s.img 0x99 = some b99 → Memory.read s.img 0x9C = some b9C →
    Memory.read s.img 0x9D = some b9D → Memory.read s.img 0x9E = some b9E →
    Memory.read s.img 0x9F = some b9F → Memory.read s.img 0xA0 = some bA0 →
    ∃ r : PCal,
      exec .unpkP s = .next { s with pcal := some r, press := none }
      ∧ u16 r.par_p1 = ((b8F.toNat * 256 + b8E.toNat : Nat) : Int)
      ∧ s16 r.par_p2 = signed16 (b91.toNat * 256 + b90.toNat)
      ∧ s8 r.par_p3 = signed8 b92.toNat
      ∧ s16 r.par_p4 = signed16 (b95.toNat * 256 + b94.toNat)
      ∧ s16 r.par_p5 = signed16 (b97.toNat * 256 + b96.toNat)
      ∧ s8 r.par_p6 = signed8 b99.toNat
      ∧ s8 r.par_p7 = signed8 b98.toNat
      ∧ s16 r.par_p8 = signed16 (b9D.toNat * 256 + b9C.toNat)
      ∧ s16 r.par_p9 = signed16 (b9F.toNat * 256 + b9E.toNat)
      ∧ u8 r.par_p10 = bA0.toNat)
  ∧ ∀ s : State, s.params.pcalMap = pcalMapDefault →
    (∃ a ∈ [0x8E, 0x8F, 0x90, 0x91, 0x92, 0x94, 0x95, 0x96, 0x97, 0x98, 0x99, 0x9C, 0x9D, 0x9E, 0x9F, 0xA0],
      Memory.read s.img a = none) →
    exec .unpkP s = .next (recorded 2#3 0x012#12 s)

/-- Rule R114: which maps are admissible, and the record UNPK.P builds under any map, with the byte order of
CAL16_LSB_FIRST (log entry 10 says how the two parameters meet); InputNotValid when a cell of the map is missing. -/
def Obligations.UnpackPressureRecordAnyMap : Prop :=
  (∀ m : PcalMap, m.wf = true ↔
    m.par_p1 = ⟨0x8E#8, 0x8F#8⟩ ∧ m.par_p10 = 0xA0#8 ∧ m.cells.Nodup
      ∧ (∀ a ∈ m.cells, 0x8E ≤ a.toNat ∧ a.toNat ≤ 0xA0) ∧ m.par_p7.toNat < m.par_p6.toNat)
  ∧ (∀ s : State, ¬ InputsValid .unpkP s → exec .unpkP s = .next (recorded 2#3 0x012#12 s))
  ∧ ∀ (s : State) (b : BitVec 8 → Byte),
    (∀ a ∈ s.params.pcalMap.cells, Memory.read s.img a.toNat = some (b a)) →
    ∃ r : PCal,
      exec .unpkP s = .next { s with pcal := some r, press := none }
      ∧ u16 r.par_p1 = pairNat s.params (b s.params.pcalMap.par_p1.lsb) (b s.params.pcalMap.par_p1.msb)
      ∧ s16 r.par_p2 =
        signed16 (pairNat s.params (b s.params.pcalMap.par_p2.lsb) (b s.params.pcalMap.par_p2.msb))
      ∧ s8 r.par_p3 = signed8 (b s.params.pcalMap.par_p3).toNat
      ∧ s16 r.par_p4 =
        signed16 (pairNat s.params (b s.params.pcalMap.par_p4.lsb) (b s.params.pcalMap.par_p4.msb))
      ∧ s16 r.par_p5 =
        signed16 (pairNat s.params (b s.params.pcalMap.par_p5.lsb) (b s.params.pcalMap.par_p5.msb))
      ∧ s8 r.par_p6 = signed8 (b s.params.pcalMap.par_p6).toNat
      ∧ s8 r.par_p7 = signed8 (b s.params.pcalMap.par_p7).toNat
      ∧ s16 r.par_p8 =
        signed16 (pairNat s.params (b s.params.pcalMap.par_p8.lsb) (b s.params.pcalMap.par_p8.msb))
      ∧ s16 r.par_p9 =
        signed16 (pairNat s.params (b s.params.pcalMap.par_p9.lsb) (b s.params.pcalMap.par_p9.msb))
      ∧ u8 r.par_p10 = (b s.params.pcalMap.par_p10).toNat

/-- 10_state.md section 9 and 43_calibration_unpack.md: what the three unpack operations leave unchanged in any next
state, a fault among them: every cell of the image, the raw samples, the other two records, every result but those
rule R23 names, the fault record but for an InputNotValid, and the model's own fields. -/
def Obligations.UnpackFrame : Prop :=
  ∀ (i : Instr) (s t : State), (i = .unpkT ∨ i = .unpkH ∨ i = .unpkP) → exec i s = .next t →
    SameImage s t ∧ SameRawSamples s t ∧ SameOwnFields s t ∧ t.draws = s.draws
      ∧ (i ≠ .unpkT → t.tcal = s.tcal ∧ t.tfine = s.tfine ∧ t.tc = s.tc)
      ∧ (i ≠ .unpkH → t.hcal = s.hcal) ∧ (i ≠ .unpkP → t.pcal = s.pcal)
      ∧ (i = .unpkP → t.hum = s.hum) ∧ (i = .unpkH → t.press = s.press)
      ∧ (t.hum = s.hum ∨ t.hum = none) ∧ (t.press = s.press ∨ t.press = none)
      ∧ (SameFaultRecord s t
        ∨ (s.err = false ∧ t = recorded 2#3 ((encode i).setWidth 12) s))

/-! ### Raw sample assembly -/

/-- Rule R120: RAW_T from its three cells, what it invalidates, and that nothing else changes; InputNotValid
when a cell is missing. -/
def Obligations.AssembleTemperatureSample : Prop :=
  (∀ (s : State) (b22 b23 b24 : Byte),
    Memory.read s.img 0x22 = some b22 → Memory.read s.img 0x23 = some b23 →
    Memory.read s.img 0x24 = some b24 →
    ∃ v : BitVec 32, v.toNat = b22.toNat * 4096 + b23.toNat * 16 + b24.toNat / 16
      ∧ exec .asmT s = .next { s with
          rawT := some v, tfine := none, tc := none, hum := none, press := none })
  ∧ ∀ s : State, ¬ InputsValid .asmT s → exec .asmT s = .next (recorded 2#3 0x020#12 s)

/-- Rule R121: RAW_H from its two cells, what it invalidates, and that nothing else changes; InputNotValid
when a cell is missing. -/
def Obligations.AssembleHumiditySample : Prop :=
  (∀ (s : State) (b25 b26 : Byte),
    Memory.read s.img 0x25 = some b25 → Memory.read s.img 0x26 = some b26 →
    ∃ v : BitVec 16, v.toNat = b25.toNat * 256 + b26.toNat
      ∧ exec .asmH s = .next { s with rawH := some v, hum := none })
  ∧ ∀ s : State, ¬ InputsValid .asmH s → exec .asmH s = .next (recorded 2#3 0x021#12 s)

/-- Rule R122: RAW_P from its three cells, what it invalidates, and that nothing else changes; InputNotValid
when a cell is missing. -/
def Obligations.AssemblePressureSample : Prop :=
  (∀ (s : State) (b1F b20 b21 : Byte),
    Memory.read s.img 0x1F = some b1F → Memory.read s.img 0x20 = some b20 →
    Memory.read s.img 0x21 = some b21 →
    ∃ v : BitVec 32, v.toNat = b1F.toNat * 4096 + b20.toNat * 16 + b21.toNat / 16
      ∧ exec .asmP s = .next { s with rawP := some v, press := none })
  ∧ ∀ s : State, ¬ InputsValid .asmP s → exec .asmP s = .next (recorded 2#3 0x022#12 s)

/-- 10_state.md section 9 and 44_raw_assembly.md: what the three assembly operations leave unchanged in any next
state, a fault among them. -/
def Obligations.AssembleFrame : Prop :=
  ∀ (i : Instr) (s t : State), (i = .asmT ∨ i = .asmH ∨ i = .asmP) → exec i s = .next t →
    SameImage s t ∧ SameCalibration s t ∧ SameOwnFields s t ∧ t.draws = s.draws
      ∧ (i ≠ .asmT → t.rawT = s.rawT ∧ t.tfine = s.tfine ∧ t.tc = s.tc)
      ∧ (i ≠ .asmH → t.rawH = s.rawH) ∧ (i ≠ .asmP → t.rawP = s.rawP)
      ∧ (i = .asmP → t.hum = s.hum) ∧ (i = .asmH → t.press = s.press)
      ∧ (t.hum = s.hum ∨ t.hum = none) ∧ (t.press = s.press ∨ t.press = none)
      ∧ (SameFaultRecord s t
        ∨ (s.err = false ∧ t = recorded 2#3 ((encode i).setWidth 12) s))

/-! ### Compensation -/

/-- Rule R131: CMP.TF delivers the value of its literal tree, invalidates TC, HUM and PRESS, and changes nothing
else (the count of draws is the model's own, log entry 6); InputNotValid when an input
is missing. -/
def Obligations.FineTemperatureResult : Prop :=
  (∀ (s : State) (raw : BitVec 32) (c : TCal), s.rawT = some raw → s.tcal = some c →
    ∃ (v : Bits64) (n : Nat),
      exec .cmpTf s = .next { s with
        tfine := some v, tc := none, hum := none, press := none, draws := n }
      ∧ isResult
          (let r := f64 raw.toNat
           let t1 := f64 c.par_t1.toNat
           let t2 := f64 (s16 c.par_t2)
           let t3 := f64 (s8 c.par_t3)
           let var1 := fmul (fsub (fdiv r (f64 16384)) (fdiv t1 (f64 1024))) t2
           let e := fsub (fdiv r (f64 131072)) (fdiv t1 (f64 8192))
           let var2 := fmul (fmul e e) (fmul t3 (f64 16))
           fadd var1 var2) v = true)
  ∧ ∀ s : State, ¬ InputsValid .cmpTf s → exec .cmpTf s = .next (recorded 2#3 0x030#12 s)

/-- Rule R132: CMP.TC delivers TFINE / 5120, invalidates HUM, and changes nothing else (the count of draws is the
model's own, log entry 6); InputNotValid when an input is missing. -/
def Obligations.CelsiusResult : Prop :=
  (∀ (s : State) (x : Bits64), s.tfine = some x →
    ∃ (v : Bits64) (n : Nat),
      exec .cmpTc s = .next { s with tc := some v, hum := none, draws := n }
      ∧ isResult (fdiv (Fp.ofBits x) (f64 5120)) v = true)
  ∧ ∀ s : State, ¬ InputsValid .cmpTc s → exec .cmpTc s = .next (recorded 2#3 0x031#12 s)

/-- Rule R134: CMP.H delivers the value of its literal tree and changes nothing else (the count of draws is the
model's own, log entry 6); InputNotValid when an input is missing. -/
def Obligations.HumidityResult : Prop :=
  (∀ (s : State) (raw : BitVec 16) (c : HCal) (x : Bits64),
    s.rawH = some raw → s.hcal = some c → s.tc = some x →
    ∃ (v : Bits64) (n : Nat),
      exec .cmpH s = .next { s with hum := some v, draws := n }
      ∧ isResult
          (let T := Fp.ofBits x
           let r := f64 raw.toNat
           let h1 := f64 c.par_h1.toNat
           let h2 := f64 c.par_h2.toNat
           let h3 := f64 (s8 c.par_h3)
           let h4 := f64 (s8 c.par_h4)
           let h5 := f64 (s8 c.par_h5)
           let h6 := f64 c.par_h6.toNat
           let h7 := f64 (s8 c.par_h7)
           let var1 := fsub r (fadd (fmul h1 (f64 16)) (fmul (fdiv h3 (f64 2)) T))
           let inner := fadd (fadd (f64 1) (fmul (fdiv h4 (f64 16384)) T))
             (fmul (fdiv h5 (f64 1048576)) (fmul T T))
           let var2 := fmul var1 (fmul (fdiv h2 (f64 262144)) inner)
           let var3 := fdiv h6 (f64 16384)
           let var4 := fdiv h7 (f64 2097152)
           fadd var2 (fmul (fadd var3 (fmul var4 T)) (fmul var2 var2))) v = true)
  ∧ ∀ s : State, ¬ InputsValid .cmpH s → exec .cmpH s = .next (recorded 2#3 0x032#12 s)

/-- Rule R136: CMP.P delivers the value of PRESS_POLY at RAW_P, PCAL and TFINE and changes nothing else (the count
of draws is the model's own, log entry 6); InputNotValid when an input is missing. -/
def Obligations.PressureResult : Prop :=
  (∀ (s : State) (raw : BitVec 32) (c : PCal) (x : Bits64),
    s.rawP = some raw → s.pcal = some c → s.tfine = some x →
    ∃ (v : Bits64) (n : Nat),
      exec .cmpP s = .next { s with press := some v, draws := n }
      ∧ isResult (pressEval s.params.pressPoly raw c (Fp.ofBits x)) v = true)
  ∧ ∀ s : State, ¬ InputsValid .cmpP s → exec .cmpP s = .next (recorded 2#3 0x033#12 s)

/-- 45_compensation.md section 3, the default PRESS_POLY (general knowledge, log entry 4): its value line by line. -/
def Obligations.DefaultPressureTree : Prop :=
  ∀ (raw : BitVec 32) (c : PCal) (t : Fp),
    pressEval pressPolyDefault raw c t =
      (let r := f64 raw.toNat
       let p1 := f64 c.par_p1.toNat
       let p2 := f64 (s16 c.par_p2)
       let p3 := f64 (s8 c.par_p3)
       let p4 := f64 (s16 c.par_p4)
       let p5 := f64 (s16 c.par_p5)
       let p6 := f64 (s8 c.par_p6)
       let p7 := f64 (s8 c.par_p7)
       let p8 := f64 (s16 c.par_p8)
       let p9 := f64 (s16 c.par_p9)
       let p10 := f64 c.par_p10.toNat
       let a1 := fsub (fdiv t (f64 2)) (f64 64000)
       let a2 := fmul (fmul a1 a1) (fdiv p6 (f64 131072))
       let a2 := fadd a2 (fmul (fmul a1 p5) (f64 2))
       let a2 := fadd (fdiv a2 (f64 4)) (fmul p4 (f64 65536))
       let b1 := fdiv (fadd (fdiv (fmul (fmul p3 a1) a1) (f64 16384)) (fmul p2 a1)) (f64 524288)
       let b1 := fmul (fadd (f64 1) (fdiv b1 (f64 32768))) p1
       let pc := fsub (f64 1048576) r
       let pc := fdiv (fmul (fsub pc (fdiv a2 (f64 4096))) (f64 6250)) b1
       let c1 := fdiv (fmul (fmul p9 pc) pc) (f64 2147483648)
       let c2 := fmul pc (fdiv p8 (f64 32768))
       let q := fdiv pc (f64 256)
       let c3 := fmul (fmul (fmul q q) q) (fdiv p10 (f64 131072))
       fadd pc (fdiv (fadd (fadd (fadd c1 c2) c3) (fmul p7 (f64 128))) (f64 16)))

/-- 10_state.md section 9 and 45_compensation.md section 1: what the four compensation operations leave unchanged in
any next state, a fault among them. -/
def Obligations.CompensateFrame : Prop :=
  ∀ (i : Instr) (s t : State), (i = .cmpTf ∨ i = .cmpTc ∨ i = .cmpH ∨ i = .cmpP) → exec i s = .next t →
    SameImage s t ∧ SameCalibration s t ∧ SameRawSamples s t ∧ SameOwnFields s t
      ∧ (i ≠ .cmpTf → t.tfine = s.tfine)
      ∧ (i = .cmpH ∨ i = .cmpP → t.tc = s.tc)
      ∧ (i = .cmpP → t.hum = s.hum)
      ∧ (i = .cmpTc ∨ i = .cmpH → t.press = s.press)
      ∧ (SameFaultRecord s t
        ∨ (s.err = false ∧ t = recorded 2#3 ((encode i).setWidth 12) s))

/-- 40_numerics.md section 3, the spec's own inference (b) on exactness: the fine temperature is its exact rational
value `fineNumerator / 2^34` rounded once to binary64, and a zero when that value is zero. -/
def Obligations.FineTemperatureIsExactRoundedOnce : Prop :=
  ∀ (raw : BitVec 32) (c : TCal), raw.toNat < 1048576 →
    (fineNumerator raw c ≠ 0 →
      fineTemperature raw c =
        roundToBinary64 (decide (fineNumerator raw c < 0)) ((fineNumerator raw c).natAbs * 2 ^ 1040) 1)
    ∧ (fineNumerator raw c = 0 → ∃ neg, fineTemperature raw c = .fin neg 0)

/-- 45_compensation.md section 1, the spec's own inference on CMP.TF: the result is always finite and of magnitude
below 2.3e6. -/
def Obligations.FineTemperatureIsBounded : Prop :=
  ∀ (raw : BitVec 32) (c : TCal), raw.toNat < 1048576 →
    (fineTemperature raw c).isFinite = true
      ∧ (fineTemperature raw c).whole.natAbs < 2300000 * fpOne

/-- 45_compensation.md section 4, the spec's own inference: with `|par_t2| >= 4097` every step of RAW_T moves the
fine temperature strictly in the direction of par_t2's sign. -/
def Obligations.FineTemperatureStrictlyMonotone : Prop :=
  ∀ (raw : BitVec 32) (c : TCal), raw.toNat + 1 < 1048576 →
    (4097 ≤ s16 c.par_t2 → (fineTemperature raw c).whole < (fineTemperature (raw + 1#32) c).whole)
    ∧ (s16 c.par_t2 ≤ -4097 → (fineTemperature (raw + 1#32) c).whole < (fineTemperature raw c).whole)

/-- Rule R140: the result of each compensation operation is a function of its input registers alone: two states that
agree on them deliver the same pattern, or a NaN each. In particular an operation issued twice on unchanged inputs
writes the same value twice. -/
def Obligations.CompensationDependsOnItsInputsOnly : Prop :=
  ∀ s s' : State,
    (s'.rawT = s.rawT → s'.tcal = s.tcal → InputsValid .cmpTf s →
      ∃ t t' v w, exec .cmpTf s = .next t ∧ exec .cmpTf s' = .next t'
        ∧ t.tfine = some v ∧ t'.tfine = some w ∧ SameDelivered v w)
    ∧ (s'.tfine = s.tfine → InputsValid .cmpTc s →
      ∃ t t' v w, exec .cmpTc s = .next t ∧ exec .cmpTc s' = .next t'
        ∧ t.tc = some v ∧ t'.tc = some w ∧ SameDelivered v w)
    ∧ (s'.rawH = s.rawH → s'.hcal = s.hcal → s'.tc = s.tc → InputsValid .cmpH s →
      ∃ t t' v w, exec .cmpH s = .next t ∧ exec .cmpH s' = .next t'
        ∧ t.hum = some v ∧ t'.hum = some w ∧ SameDelivered v w)
    ∧ (s'.params = s.params → s'.rawP = s.rawP → s'.pcal = s.pcal → s'.tfine = s.tfine → InputsValid .cmpP s →
      ∃ t t' v w, exec .cmpP s = .next t ∧ exec .cmpP s' = .next t'
        ∧ t.press = some v ∧ t'.press = some w ∧ SameDelivered v w)

/-- 45_compensation.md section 3, corner case (a) of CMP.P, under the default PRESS_POLY as a hypothesis (log entry
4): with the all-zero pressure calibration the result is a NaN, delivered as a quiet NaN without a fault. -/
def Obligations.ZeroPressureCalibrationGivesNaN : Prop :=
  ∀ (s : State) (raw : BitVec 32) (x : Bits64),
    s.params.pressPoly = pressPolyDefault → s.rawP = some raw → s.pcal = some zeroPcal → s.tfine = some x →
    ∃ (t : State) (v : Bits64), exec .cmpP s = .next t ∧ t.press = some v ∧ isQuietNaN v = true
      ∧ SameFaultRecord s t

/-- 45_compensation.md section 2, the corner case of the all-zero humidity calibration: +0 for every finite
temperature whose square is finite (log entry 12 says why the square must be). -/
def Obligations.ZeroHumidityCalibrationGivesZero : Prop :=
  ∀ (raw : BitVec 16) (t : Fp), t.isFinite = true → (fmul t t).isFinite = true →
    humidityPercent raw zeroHcal t = .fin false 0

/-! ### Binary64 arithmetic -/

/-- 40_numerics.md section 2, roundTiesToEven with overflow to infinity and gradual underflow: the rounding of a
nonnegative rational is the nearest binary64 number, of two nearest the one with the even significand, and an
infinity exactly from the midpoint above the largest finite number on. -/
def Obligations.RoundingIsToNearestTiesToEven : Prop :=
  ∀ (neg : Bool) (n d : Nat), 0 < d →
    (n < (2 ^ 2098 - 2 ^ 2044) * d →
      ∃ x, roundToBinary64 neg n d = .fin neg x ∧ (Fp.fin neg x).representable = true
        ∧ ∀ y, (Fp.fin neg y).representable = true →
          ((x * d : Nat) - n : Int).natAbs ≤ ((y * d : Nat) - n : Int).natAbs
            ∧ (y ≠ x → ((x * d : Nat) - n : Int).natAbs = ((y * d : Nat) - n : Int).natAbs →
              x / 2 ^ ulpExp x % 2 = 0))
    ∧ ((2 ^ 2098 - 2 ^ 2044) * d ≤ n → roundToBinary64 neg n d = .inf neg)

/-- 40_numerics.md section 2: each of the four operations on finite operands is the exact result rounded once; an
exact zero sum is -0 only for two operands with the sign bit set. -/
def Obligations.OperationsRoundTheExactResultOnce : Prop :=
  ∀ (s t : Bool) (x y : Nat),
    (signedMag s x + signedMag t y ≠ 0 →
      fadd (.fin s x) (.fin t y) =
        roundToBinary64 (decide (signedMag s x + signedMag t y < 0)) (signedMag s x + signedMag t y).natAbs 1)
    ∧ (signedMag s x + signedMag t y = 0 → fadd (.fin s x) (.fin t y) = .fin (s && t) 0)
    ∧ fsub (.fin s x) (.fin t y) = fadd (.fin s x) (.fin (!t) y)
    ∧ fmul (.fin s x) (.fin t y) = roundToBinary64 (s != t) (x * y) (2 ^ 1074)
    ∧ (y ≠ 0 → fdiv (.fin s x) (.fin t y) = roundToBinary64 (s != t) (x * 2 ^ 1074) y)

/-- Rule R77: the exceptional values that the rule lists; no operation faults, since each is a function to a
datum. -/
def Obligations.ExceptionalValues : Prop :=
  (∀ (s t : Bool) (x : Nat), x ≠ 0 → fdiv (.fin s x) (.fin t 0) = .inf (s != t))
    ∧ (∀ s t : Bool, fdiv (.fin s 0) (.fin t 0) = .nan)
    ∧ (∀ s : Bool, fsub (.inf s) (.inf s) = .nan)
    ∧ (∀ s t : Bool, fmul (.fin s 0) (.inf t) = .nan ∧ fmul (.inf s) (.fin t 0) = .nan)
    ∧ (∀ s t : Bool, fdiv (.inf s) (.inf t) = .nan)
    ∧ (∀ a : Fp, fadd .nan a = .nan ∧ fadd a .nan = .nan ∧ fsub .nan a = .nan ∧ fsub a .nan = .nan
      ∧ fmul .nan a = .nan ∧ fmul a .nan = .nan ∧ fdiv .nan a = .nan ∧ fdiv a .nan = .nan)
    ∧ (∀ (neg : Bool) (n d : Nat), 0 < d → 2 ^ 2098 * d ≤ n → roundToBinary64 neg n d = .inf neg)

/-- 40_numerics.md section 2, signed zeros, with the section's example of a -0 in TFINE. -/
def Obligations.SignedZeros : Prop :=
  (∀ x : Nat, x ≠ 0 → fmul (.fin false 0) (.fin true x) = .fin true 0)
    ∧ fadd (.fin false 0) (.fin true 0) = .fin false 0
    ∧ fadd (.fin true 0) (.fin true 0) = .fin true 0
    ∧ (∀ (s : Bool) (x : Nat), fsub (.fin s x) (.fin s x) = .fin false 0)
    ∧ (fineTemperature 0#32 { par_t1 := 0#16, par_t2 := 0xFFFF#16, par_t3 := 0xFF#8 }).toBits 0#64
      = 0x8000000000000000#64

/-- 40_numerics.md section 2: the conversion of every integer below 2^53 in magnitude is exact, and f64(0) is +0. -/
def Obligations.IntegerConversionIsExact : Prop :=
  ∀ i : Int, i.natAbs < 2 ^ 53 → f64 i = .fin (decide (i < 0)) (i.natAbs * 2 ^ 1074)

/-- 20_memory.md section 2 and 40_numerics.md section 2: the pattern of a datum and the datum of a pattern are
inverse to each other, and a delivered NaN is a quiet NaN, whatever the draw. -/
def Obligations.PatternsRoundTrip : Prop :=
  (∀ (c : BitVec 64) (v : Bits64), Fp.ofBits v ≠ .nan → (Fp.ofBits v).toBits c = v)
    ∧ (∀ (c : BitVec 64) (x : Fp), x.representable = true → Fp.ofBits (x.toBits c) = x)
    ∧ ∀ c : BitVec 64, isQuietNaN (Fp.toBits c .nan) = true

/-- 40_numerics.md section 2: every pattern is a binary64 datum, and the operations and the conversion keep to
binary64 data. -/
def Obligations.OperationsKeepToBinary64 : Prop :=
  (∀ v : Bits64, (Fp.ofBits v).representable = true)
    ∧ (∀ i : Int, (f64 i).representable = true)
    ∧ ∀ a b : Fp, a.representable = true → b.representable = true →
      (fadd a b).representable = true ∧ (fsub a b).representable = true
        ∧ (fmul a b).representable = true ∧ (fdiv a b).representable = true

/-- 40_numerics.md section 3, the section's example of an allowed replacement: dividing by 2.0 and multiplying by 0.5
agree on every datum. -/
def Obligations.HalvingByDivisionOrMultiplication : Prop :=
  ∀ x : Fp, fdiv x (f64 2) = fmul x (Fp.ofBits 0x3FE0000000000000#64)

/-! ### Integer packings -/

/-- Rule R71: assembling two bytes and splitting the result. -/
def Obligations.AssembleSixteenBits : Prop :=
  (∀ msb lsb : Byte, (assemble16 msb lsb).toNat = msb.toNat * 256 + lsb.toNat
    ∧ (assemble16 msb lsb).extractLsb' 8 8 = msb ∧ (assemble16 msb lsb).extractLsb' 0 8 = lsb)
    ∧ ∀ w : BitVec 16, assemble16 (w.extractLsb' 8 8) (w.extractLsb' 0 8) = w

/-- Rule R72: two's complement reinterpretation, with the rule's examples. -/
def Obligations.SignedReinterpretation : Prop :=
  (∀ w : BitVec 16, (w.toNat < 32768 → s16 w = w.toNat) ∧ (32768 ≤ w.toNat → s16 w = (w.toNat : Int) - 65536)
    ∧ s16 w = w.toInt)
    ∧ (∀ b : BitVec 8, (b.toNat < 128 → s8 b = b.toNat) ∧ (128 ≤ b.toNat → s8 b = (b.toNat : Int) - 256)
      ∧ s8 b = b.toInt)
    ∧ s16 0xFFFF#16 = -1 ∧ s16 0x8000#16 = -32768 ∧ s16 0x7FFF#16 = 32767
    ∧ s8 0xCE#8 = -50 ∧ s8 0x80#8 = -128 ∧ s8 0x7F#8 = 127

/-- Rule R73: nibble packing and the recovery of the two nibbles of the shared byte. -/
def Obligations.NibblePacking : Prop :=
  (∀ m s : Byte, (packLowNibble m s).toNat = m.toNat * 16 + s.toNat % 16
    ∧ (packHighNibble m s).toNat = m.toNat * 16 + s.toNat / 16
    ∧ (packLowNibble m s).toNat < 4096 ∧ (packHighNibble m s).toNat < 4096)
    ∧ ∀ lo hi : BitVec 4, ∀ m : Byte,
      (packLowNibble m (hi ++ lo)).extractLsb' 0 4 = lo ∧ (packHighNibble m (hi ++ lo)).extractLsb' 0 4 = hi

/-- 40_numerics.md section 1, 20-bit packing; the low nibble of the last byte does not count. The spec marks the formula
as its own inference: "the formula is that sentence written out [derived: from the quoted sentence and the 20-bit width
of `10_state.md` rule R18]", the sentence being the source's "assemble big-endian, and for 20-bit quantities right-shift
the final byte by 4 before packing". -/
def Obligations.TwentyBitPacking : Prop :=
  (∀ msb lsb xlsb : Byte, (raw20 msb lsb xlsb).toNat = msb.toNat * 4096 + lsb.toNat * 16 + xlsb.toNat / 16
    ∧ (raw20 msb lsb xlsb).toNat < 1048576)
    ∧ ∀ msb lsb : Byte, raw16 msb lsb = assemble16 msb lsb

/-! ### Reset and whole-machine rules -/

/-- 70_reset_and_hazards.md section 1: reset gives all valid bits 0 and a cleared record from any state; no read of the
reset state finds a value but STATUS, which reads 0. That the reset step keeps the model's own fields (`params`,
`draws`, `pending`, `answers`) is the model's choice and no rule of the spec (log entry 13). -/
def Obligations.ResetClearsEverything : Prop :=
  (∀ s : State, perform .reset s = .next { State.reset with
      params := s.params, draws := s.draws, pending := s.pending, answers := s.answers })
    ∧ (∀ a : Nat, Memory.read State.reset.img a = none)
    ∧ State.reset.err = false ∧ State.reset.ecode = 0#3 ∧ State.reset.einfo = 0#12
    ∧ statusWord State.reset = 0#64
    ∧ ∀ h : HostAddr, h ≠ 0x100#12 → readPort h State.reset = none

/-- 70_reset_and_hazards.md section 1, the spec's own inference: CLR.ALL yields the same state as reset. That
the reset step keeps the model's own fields is the model's choice (log entry 13). -/
def Obligations.ClrAllEqualsReset : Prop :=
  ∀ s : State, Memory.wf s.img = true → exec .clrAll s = perform .reset s

/-- Every step keeps the containers canonical (10_state.md sections 2 to 4): the image sorted inside 0x00..0xFF,
par_h1 and par_h2 below 4096, RAW_T and RAW_P below 2^20. -/
def Obligations.StepKeepsTheContainersCanonical : Prop :=
  ∀ s t : State, s.Canonical → step s = .next t → t.Canonical

/-- Every step keeps the fault record one that 10_state.md section 7 and 60_exceptions.md section 2 allow: cleared,
or the code and information of one of the three faults. -/
def Obligations.StepKeepsTheFaultRecordConsistent : Prop :=
  ∀ s t : State, s.RecordConsistent → step s = .next t → t.RecordConsistent

/-- No step leaves a stale result (10_state.md section 6, the spec's own consequences (a) and (b)): a valid HUM is
the humidity of the registers as they stand, a valid PRESS the pressure. -/
def Obligations.StepKeepsResultsFresh : Prop :=
  ∀ s t : State, s.Fresh → step s = .next t → t.Fresh

/-- The reset state meets the invariants: canonical containers, a consistent record, fresh results, admissible
parameters (the defaults of log entries 2, 3 and 4). -/
def Obligations.ResetMeetsTheInvariants : Prop :=
  State.reset.Canonical ∧ State.reset.RecordConsistent ∧ State.reset.Fresh ∧ State.reset.params.wf = true

/-- 70_reset_and_hazards.md section 4: every host transaction completes; no step faults, refuses or stays. -/
def Obligations.EveryStepCompletes : Prop :=
  ∀ s : State, (∃ t, step s = .next t)
    ∧ ∀ (e : HostEvent) (rest : List HostEvent), s.pending = e :: rest →
      ∃ t, step s = .next t ∧ t.pending = rest ∧ t.params = s.params

/-- Rule R17: a calibration record changes in a step only by the unpack operation of that record, by CLR.ALL or by
reset. -/
def Obligations.CalibrationRecordsAreSnapshots : Prop :=
  ∀ (s t : State) (e : HostEvent) (rest : List HostEvent), s.pending = e :: rest → step s = .next t →
    (t.tcal ≠ s.tcal →
      e = .reset ∨ ∃ d, e = .write 0x101#12 d ∧ (d.setWidth 8 = 0x10#8 ∨ d.setWidth 8 = 0x02#8))
    ∧ (t.hcal ≠ s.hcal →
      e = .reset ∨ ∃ d, e = .write 0x101#12 d ∧ (d.setWidth 8 = 0x11#8 ∨ d.setWidth 8 = 0x02#8))
    ∧ (t.pcal ≠ s.pcal →
      e = .reset ∨ ∃ d, e = .write 0x101#12 d ∧ (d.setWidth 8 = 0x12#8 ∨ d.setWidth 8 = 0x02#8))

/-- 10_state.md section 2: no operation writes a cell's byte; it keeps the cell or takes its value, and takes a value
only in CLR.CYC and CLR.ALL. -/
def Obligations.OperationsNeverWriteACell : Prop :=
  ∀ (i : Instr) (s t : State) (a : Nat), exec i s = .next t →
    (Memory.read t.img a = Memory.read s.img a ∨ Memory.read t.img a = none)
      ∧ (i ≠ .clrCyc → i ≠ .clrAll → Memory.read t.img a = Memory.read s.img a)

/-- Rule R23, the table: what a completed write of each register clears at the same time, by operations and by the
host alike, and that nothing else loses its value. -/
def Obligations.WritesInvalidateWhatDependsOnThem : Prop :=
  ∀ s t : State,
    (InputsValid .unpkT s → exec .unpkT s = .next t →
      t.tfine = none ∧ t.tc = none ∧ t.hum = none ∧ t.press = none
        ∧ t.hcal = s.hcal ∧ t.pcal = s.pcal ∧ SameRawSamples s t)
    ∧ (InputsValid .unpkH s → exec .unpkH s = .next t →
      t.hum = none ∧ t.tfine = s.tfine ∧ t.tc = s.tc ∧ t.press = s.press
        ∧ t.tcal = s.tcal ∧ t.pcal = s.pcal ∧ SameRawSamples s t)
    ∧ (InputsValid .unpkP s → exec .unpkP s = .next t →
      t.press = none ∧ t.tfine = s.tfine ∧ t.tc = s.tc ∧ t.hum = s.hum
        ∧ t.tcal = s.tcal ∧ t.hcal = s.hcal ∧ SameRawSamples s t)
    ∧ (InputsValid .asmT s → exec .asmT s = .next t →
      t.tfine = none ∧ t.tc = none ∧ t.hum = none ∧ t.press = none
        ∧ t.rawH = s.rawH ∧ t.rawP = s.rawP ∧ SameCalibration s t)
    ∧ (InputsValid .asmH s → exec .asmH s = .next t →
      t.hum = none ∧ t.tfine = s.tfine ∧ t.tc = s.tc ∧ t.press = s.press
        ∧ t.rawT = s.rawT ∧ t.rawP = s.rawP ∧ SameCalibration s t)
    ∧ (InputsValid .asmP s → exec .asmP s = .next t →
      t.press = none ∧ t.tfine = s.tfine ∧ t.tc = s.tc ∧ t.hum = s.hum
        ∧ t.rawT = s.rawT ∧ t.rawH = s.rawH ∧ SameCalibration s t)
    ∧ (InputsValid .cmpTf s → exec .cmpTf s = .next t →
      t.tc = none ∧ t.hum = none ∧ t.press = none ∧ SameCalibration s t ∧ SameRawSamples s t)
    ∧ (InputsValid .cmpTc s → exec .cmpTc s = .next t →
      t.hum = none ∧ t.tfine = s.tfine ∧ t.press = s.press ∧ SameCalibration s t ∧ SameRawSamples s t)
    ∧ (InputsValid .cmpH s → exec .cmpH s = .next t →
      t.tfine = s.tfine ∧ t.tc = s.tc ∧ t.press = s.press ∧ SameCalibration s t ∧ SameRawSamples s t)
    ∧ (InputsValid .cmpP s → exec .cmpP s = .next t →
      t.tfine = s.tfine ∧ t.tc = s.tc ∧ t.hum = s.hum ∧ SameCalibration s t ∧ SameRawSamples s t)
    ∧ (∀ d, perform (.write 0x150#12 d) s = .next t →
      t.tc = none ∧ t.hum = none ∧ t.press = none ∧ SameCalibration s t ∧ SameRawSamples s t)
    ∧ (∀ d, perform (.write 0x151#12 d) s = .next t →
      t.hum = none ∧ t.tfine = s.tfine ∧ t.press = s.press ∧ SameCalibration s t ∧ SameRawSamples s t)
    ∧ (∀ (h : HostAddr) (d : Datum), h.toNat ≤ 0x0FF → perform (.write h d) s = .next t →
      SameResults s t ∧ SameCalibration s t ∧ SameRawSamples s t)

/-- 10_state.md section 5: HUM and PRESS are never inputs of any operation: other values in them change nothing that
an operation does to the rest of the state. -/
def Obligations.HumAndPressAreNeverInputs : Prop :=
  ∀ (i : Instr) (s t : State) (v w : Option Bits64), exec i s = .next t →
    ∃ t', exec i { s with hum := v, press := w } = .next t'
      ∧ { t' with hum := none, press := none } = { t with hum := none, press := none }
end

