-- ==== Sys2Proof/Laws/Memory.lean ====
section
/-!
SUPPORT. The laws of the image: a read after a write, a read after a clearing, and that every operation keeps the
canonical form.
-/

namespace Sys2Proof.Machine

/-- A cell reads the byte written to it (rules R51, R53). -/
@[simp] theorem read_write_same (m : Memory) (a : Nat) (v : Byte) :
    Memory.read (Memory.write m a v) a = some v := by
  induction m with
  | nil => simp [Memory.write, Memory.read]
  | cons c rest ih =>
    obtain ⟨b, w⟩ := c
    unfold Memory.write
    split
    · simp [Memory.read]
    · split
      · simp [Memory.read]
      · rename_i _ h
        simp [Memory.read, Ne.symm h, ih]

/-- A write leaves every other cell alone. -/
theorem read_write_other (m : Memory) (a a' : Nat) (v : Byte) (h : a' ≠ a) :
    Memory.read (Memory.write m a v) a' = Memory.read m a' := by
  induction m with
  | nil => simp [Memory.write, Memory.read, Ne.symm h]
  | cons c rest ih =>
    obtain ⟨b, w⟩ := c
    unfold Memory.write
    split
    · simp [Memory.read, Ne.symm h]
    · split
      · rename_i _ hb
        subst hb
        simp [Memory.read, Ne.symm h]
      · simp [Memory.read, ih]

/-- Clearing a range takes the values of its cells and no others (rules R100, R101). -/
theorem read_clearRange (m : Memory) (lo hi a : Nat) :
    Memory.read (Memory.clearRange m lo hi) a = if lo ≤ a ∧ a ≤ hi then none else Memory.read m a := by
  induction m with
  | nil => simp [Memory.clearRange, Memory.read]
  | cons c rest ih =>
    obtain ⟨b, w⟩ := c
    unfold Memory.clearRange
    split
    · rename_i hb
      rw [ih, Memory.read]
      split
      · rfl
      · rename_i ha
        rw [if_neg]
        rintro rfl
        exact ha hb
    · rename_i hb
      by_cases e : b = a
      · subst e
        simp [Memory.read, hb]
      · simp [Memory.read, e, ih]

/-- A larger lower bound is also kept by a rising list. -/
theorem risesFrom_mono (m : Memory) (lo lo' : Nat) (h : lo' ≤ lo) (w : Memory.risesFrom m lo = true) :
    Memory.risesFrom m lo' = true := by
  cases m with
  | nil => rfl
  | cons c rest =>
    obtain ⟨b, _⟩ := c
    simp only [Memory.risesFrom, Bool.and_eq_true, decide_eq_true_eq] at w ⊢
    exact ⟨⟨h.trans w.1.1, w.1.2⟩, w.2⟩

theorem risesFrom_write (m : Memory) (lo a : Nat) (v : Byte) (hl : lo ≤ a) (ha : a < 256)
    (w : Memory.risesFrom m lo = true) : Memory.risesFrom (Memory.write m a v) lo = true := by
  induction m generalizing lo with
  | nil => simp [Memory.write, Memory.risesFrom, hl, ha]
  | cons c rest ih =>
    obtain ⟨b, x⟩ := c
    simp only [Memory.risesFrom, Bool.and_eq_true, decide_eq_true_eq] at w
    obtain ⟨⟨h1, h2⟩, h3⟩ := w
    unfold Memory.write
    split
    · simp only [Memory.risesFrom, Bool.and_eq_true, decide_eq_true_eq]
      exact ⟨⟨hl, ha⟩, ⟨by omega, h2⟩, h3⟩
    · split
      · rename_i e
        subst e
        simp only [Memory.risesFrom, Bool.and_eq_true, decide_eq_true_eq]
        exact ⟨⟨h1, h2⟩, h3⟩
      · simp only [Memory.risesFrom, Bool.and_eq_true, decide_eq_true_eq]
        exact ⟨⟨h1, h2⟩, ih _ (by omega) h3⟩

theorem risesFrom_clearRange (m : Memory) (k lo hi : Nat) (w : Memory.risesFrom m k = true) :
    Memory.risesFrom (Memory.clearRange m lo hi) k = true := by
  induction m generalizing k with
  | nil => rfl
  | cons c rest ih =>
    obtain ⟨b, x⟩ := c
    simp only [Memory.risesFrom, Bool.and_eq_true, decide_eq_true_eq] at w
    obtain ⟨⟨h1, h2⟩, h3⟩ := w
    unfold Memory.clearRange
    split
    · exact ih _ (risesFrom_mono _ _ _ (by omega) h3)
    · simp only [Memory.risesFrom, Bool.and_eq_true, decide_eq_true_eq]
      exact ⟨⟨h1, h2⟩, ih _ h3⟩

/-- A write of a cell keeps the canonical form. -/
theorem wf_write (m : Memory) (a : Nat) (v : Byte) (ha : a < 256) (w : Memory.wf m = true) :
    Memory.wf (Memory.write m a v) = true :=
  risesFrom_write m 0 a v (Nat.zero_le a) ha w

/-- Clearing a range keeps the canonical form. -/
theorem wf_clearRange (m : Memory) (lo hi : Nat) (w : Memory.wf m = true) :
    Memory.wf (Memory.clearRange m lo hi) = true :=
  risesFrom_clearRange m 0 lo hi w

/-- The empty image, that of the reset state, is canonical. -/
theorem wf_reset : Memory.wf State.reset.img = true := rfl

end Sys2Proof.Machine
end

