-- ==== Sys2Proof/Laws/State.lean ====
section
/-!
SUPPORT. What every named update of the state does to every field, one lemma each, true by definition.
-/

namespace Sys2Proof.Machine

variable (s : State)

@[simp] theorem invalidateHum_img : (invalidateHum s).img = s.img := rfl
@[simp] theorem invalidateHum_tcal : (invalidateHum s).tcal = s.tcal := rfl
@[simp] theorem invalidateHum_hcal : (invalidateHum s).hcal = s.hcal := rfl
@[simp] theorem invalidateHum_pcal : (invalidateHum s).pcal = s.pcal := rfl
@[simp] theorem invalidateHum_rawT : (invalidateHum s).rawT = s.rawT := rfl
@[simp] theorem invalidateHum_rawH : (invalidateHum s).rawH = s.rawH := rfl
@[simp] theorem invalidateHum_rawP : (invalidateHum s).rawP = s.rawP := rfl
@[simp] theorem invalidateHum_tfine : (invalidateHum s).tfine = s.tfine := rfl
@[simp] theorem invalidateHum_tc : (invalidateHum s).tc = s.tc := rfl
@[simp] theorem invalidateHum_hum : (invalidateHum s).hum = none := rfl
@[simp] theorem invalidateHum_press : (invalidateHum s).press = s.press := rfl
@[simp] theorem invalidateHum_err : (invalidateHum s).err = s.err := rfl
@[simp] theorem invalidateHum_ecode : (invalidateHum s).ecode = s.ecode := rfl
@[simp] theorem invalidateHum_einfo : (invalidateHum s).einfo = s.einfo := rfl
@[simp] theorem invalidateHum_params : (invalidateHum s).params = s.params := rfl
@[simp] theorem invalidateHum_draws : (invalidateHum s).draws = s.draws := rfl
@[simp] theorem invalidateHum_pending : (invalidateHum s).pending = s.pending := rfl
@[simp] theorem invalidateHum_answers : (invalidateHum s).answers = s.answers := rfl

@[simp] theorem invalidatePress_img : (invalidatePress s).img = s.img := rfl
@[simp] theorem invalidatePress_tcal : (invalidatePress s).tcal = s.tcal := rfl
@[simp] theorem invalidatePress_hcal : (invalidatePress s).hcal = s.hcal := rfl
@[simp] theorem invalidatePress_pcal : (invalidatePress s).pcal = s.pcal := rfl
@[simp] theorem invalidatePress_rawT : (invalidatePress s).rawT = s.rawT := rfl
@[simp] theorem invalidatePress_rawH : (invalidatePress s).rawH = s.rawH := rfl
@[simp] theorem invalidatePress_rawP : (invalidatePress s).rawP = s.rawP := rfl
@[simp] theorem invalidatePress_tfine : (invalidatePress s).tfine = s.tfine := rfl
@[simp] theorem invalidatePress_tc : (invalidatePress s).tc = s.tc := rfl
@[simp] theorem invalidatePress_hum : (invalidatePress s).hum = s.hum := rfl
@[simp] theorem invalidatePress_press : (invalidatePress s).press = none := rfl
@[simp] theorem invalidatePress_err : (invalidatePress s).err = s.err := rfl
@[simp] theorem invalidatePress_ecode : (invalidatePress s).ecode = s.ecode := rfl
@[simp] theorem invalidatePress_einfo : (invalidatePress s).einfo = s.einfo := rfl
@[simp] theorem invalidatePress_params : (invalidatePress s).params = s.params := rfl
@[simp] theorem invalidatePress_draws : (invalidatePress s).draws = s.draws := rfl
@[simp] theorem invalidatePress_pending : (invalidatePress s).pending = s.pending := rfl
@[simp] theorem invalidatePress_answers : (invalidatePress s).answers = s.answers := rfl

@[simp] theorem invalidateFromTfine_img : (invalidateFromTfine s).img = s.img := rfl
@[simp] theorem invalidateFromTfine_tcal : (invalidateFromTfine s).tcal = s.tcal := rfl
@[simp] theorem invalidateFromTfine_hcal : (invalidateFromTfine s).hcal = s.hcal := rfl
@[simp] theorem invalidateFromTfine_pcal : (invalidateFromTfine s).pcal = s.pcal := rfl
@[simp] theorem invalidateFromTfine_rawT : (invalidateFromTfine s).rawT = s.rawT := rfl
@[simp] theorem invalidateFromTfine_rawH : (invalidateFromTfine s).rawH = s.rawH := rfl
@[simp] theorem invalidateFromTfine_rawP : (invalidateFromTfine s).rawP = s.rawP := rfl
@[simp] theorem invalidateFromTfine_tfine : (invalidateFromTfine s).tfine = s.tfine := rfl
@[simp] theorem invalidateFromTfine_tc : (invalidateFromTfine s).tc = none := rfl
@[simp] theorem invalidateFromTfine_hum : (invalidateFromTfine s).hum = none := rfl
@[simp] theorem invalidateFromTfine_press : (invalidateFromTfine s).press = none := rfl
@[simp] theorem invalidateFromTfine_err : (invalidateFromTfine s).err = s.err := rfl
@[simp] theorem invalidateFromTfine_ecode : (invalidateFromTfine s).ecode = s.ecode := rfl
@[simp] theorem invalidateFromTfine_einfo : (invalidateFromTfine s).einfo = s.einfo := rfl
@[simp] theorem invalidateFromTfine_params : (invalidateFromTfine s).params = s.params := rfl
@[simp] theorem invalidateFromTfine_draws : (invalidateFromTfine s).draws = s.draws := rfl
@[simp] theorem invalidateFromTfine_pending : (invalidateFromTfine s).pending = s.pending := rfl
@[simp] theorem invalidateFromTfine_answers : (invalidateFromTfine s).answers = s.answers := rfl

@[simp] theorem invalidateFromTemperature_img : (invalidateFromTemperature s).img = s.img := rfl
@[simp] theorem invalidateFromTemperature_tcal : (invalidateFromTemperature s).tcal = s.tcal := rfl
@[simp] theorem invalidateFromTemperature_hcal : (invalidateFromTemperature s).hcal = s.hcal := rfl
@[simp] theorem invalidateFromTemperature_pcal : (invalidateFromTemperature s).pcal = s.pcal := rfl
@[simp] theorem invalidateFromTemperature_rawT : (invalidateFromTemperature s).rawT = s.rawT := rfl
@[simp] theorem invalidateFromTemperature_rawH : (invalidateFromTemperature s).rawH = s.rawH := rfl
@[simp] theorem invalidateFromTemperature_rawP : (invalidateFromTemperature s).rawP = s.rawP := rfl
@[simp] theorem invalidateFromTemperature_tfine : (invalidateFromTemperature s).tfine = none := rfl
@[simp] theorem invalidateFromTemperature_tc : (invalidateFromTemperature s).tc = none := rfl
@[simp] theorem invalidateFromTemperature_hum : (invalidateFromTemperature s).hum = none := rfl
@[simp] theorem invalidateFromTemperature_press : (invalidateFromTemperature s).press = none := rfl
@[simp] theorem invalidateFromTemperature_err : (invalidateFromTemperature s).err = s.err := rfl
@[simp] theorem invalidateFromTemperature_ecode : (invalidateFromTemperature s).ecode = s.ecode := rfl
@[simp] theorem invalidateFromTemperature_einfo : (invalidateFromTemperature s).einfo = s.einfo := rfl
@[simp] theorem invalidateFromTemperature_params : (invalidateFromTemperature s).params = s.params := rfl
@[simp] theorem invalidateFromTemperature_draws : (invalidateFromTemperature s).draws = s.draws := rfl
@[simp] theorem invalidateFromTemperature_pending : (invalidateFromTemperature s).pending = s.pending := rfl
@[simp] theorem invalidateFromTemperature_answers : (invalidateFromTemperature s).answers = s.answers := rfl

@[simp] theorem storeCell_img (a : Nat) (v : Byte) : (storeCell a v s).img = Memory.write s.img a v := rfl
@[simp] theorem storeCell_tcal (a : Nat) (v : Byte) : (storeCell a v s).tcal = s.tcal := rfl
@[simp] theorem storeCell_hcal (a : Nat) (v : Byte) : (storeCell a v s).hcal = s.hcal := rfl
@[simp] theorem storeCell_pcal (a : Nat) (v : Byte) : (storeCell a v s).pcal = s.pcal := rfl
@[simp] theorem storeCell_rawT (a : Nat) (v : Byte) : (storeCell a v s).rawT = s.rawT := rfl
@[simp] theorem storeCell_rawH (a : Nat) (v : Byte) : (storeCell a v s).rawH = s.rawH := rfl
@[simp] theorem storeCell_rawP (a : Nat) (v : Byte) : (storeCell a v s).rawP = s.rawP := rfl
@[simp] theorem storeCell_tfine (a : Nat) (v : Byte) : (storeCell a v s).tfine = s.tfine := rfl
@[simp] theorem storeCell_tc (a : Nat) (v : Byte) : (storeCell a v s).tc = s.tc := rfl
@[simp] theorem storeCell_hum (a : Nat) (v : Byte) : (storeCell a v s).hum = s.hum := rfl
@[simp] theorem storeCell_press (a : Nat) (v : Byte) : (storeCell a v s).press = s.press := rfl
@[simp] theorem storeCell_err (a : Nat) (v : Byte) : (storeCell a v s).err = s.err := rfl
@[simp] theorem storeCell_ecode (a : Nat) (v : Byte) : (storeCell a v s).ecode = s.ecode := rfl
@[simp] theorem storeCell_einfo (a : Nat) (v : Byte) : (storeCell a v s).einfo = s.einfo := rfl
@[simp] theorem storeCell_params (a : Nat) (v : Byte) : (storeCell a v s).params = s.params := rfl
@[simp] theorem storeCell_draws (a : Nat) (v : Byte) : (storeCell a v s).draws = s.draws := rfl
@[simp] theorem storeCell_pending (a : Nat) (v : Byte) : (storeCell a v s).pending = s.pending := rfl
@[simp] theorem storeCell_answers (a : Nat) (v : Byte) : (storeCell a v s).answers = s.answers := rfl

@[simp] theorem writeTcal_img (r : TCal) : (writeTcal r s).img = s.img := rfl
@[simp] theorem writeTcal_tcal (r : TCal) : (writeTcal r s).tcal = some r := rfl
@[simp] theorem writeTcal_hcal (r : TCal) : (writeTcal r s).hcal = s.hcal := rfl
@[simp] theorem writeTcal_pcal (r : TCal) : (writeTcal r s).pcal = s.pcal := rfl
@[simp] theorem writeTcal_rawT (r : TCal) : (writeTcal r s).rawT = s.rawT := rfl
@[simp] theorem writeTcal_rawH (r : TCal) : (writeTcal r s).rawH = s.rawH := rfl
@[simp] theorem writeTcal_rawP (r : TCal) : (writeTcal r s).rawP = s.rawP := rfl
@[simp] theorem writeTcal_tfine (r : TCal) : (writeTcal r s).tfine = none := rfl
@[simp] theorem writeTcal_tc (r : TCal) : (writeTcal r s).tc = none := rfl
@[simp] theorem writeTcal_hum (r : TCal) : (writeTcal r s).hum = none := rfl
@[simp] theorem writeTcal_press (r : TCal) : (writeTcal r s).press = none := rfl
@[simp] theorem writeTcal_err (r : TCal) : (writeTcal r s).err = s.err := rfl
@[simp] theorem writeTcal_ecode (r : TCal) : (writeTcal r s).ecode = s.ecode := rfl
@[simp] theorem writeTcal_einfo (r : TCal) : (writeTcal r s).einfo = s.einfo := rfl
@[simp] theorem writeTcal_params (r : TCal) : (writeTcal r s).params = s.params := rfl
@[simp] theorem writeTcal_draws (r : TCal) : (writeTcal r s).draws = s.draws := rfl
@[simp] theorem writeTcal_pending (r : TCal) : (writeTcal r s).pending = s.pending := rfl
@[simp] theorem writeTcal_answers (r : TCal) : (writeTcal r s).answers = s.answers := rfl

@[simp] theorem writeHcal_img (r : HCal) : (writeHcal r s).img = s.img := rfl
@[simp] theorem writeHcal_tcal (r : HCal) : (writeHcal r s).tcal = s.tcal := rfl
@[simp] theorem writeHcal_hcal (r : HCal) : (writeHcal r s).hcal = some r := rfl
@[simp] theorem writeHcal_pcal (r : HCal) : (writeHcal r s).pcal = s.pcal := rfl
@[simp] theorem writeHcal_rawT (r : HCal) : (writeHcal r s).rawT = s.rawT := rfl
@[simp] theorem writeHcal_rawH (r : HCal) : (writeHcal r s).rawH = s.rawH := rfl
@[simp] theorem writeHcal_rawP (r : HCal) : (writeHcal r s).rawP = s.rawP := rfl
@[simp] theorem writeHcal_tfine (r : HCal) : (writeHcal r s).tfine = s.tfine := rfl
@[simp] theorem writeHcal_tc (r : HCal) : (writeHcal r s).tc = s.tc := rfl
@[simp] theorem writeHcal_hum (r : HCal) : (writeHcal r s).hum = none := rfl
@[simp] theorem writeHcal_press (r : HCal) : (writeHcal r s).press = s.press := rfl
@[simp] theorem writeHcal_err (r : HCal) : (writeHcal r s).err = s.err := rfl
@[simp] theorem writeHcal_ecode (r : HCal) : (writeHcal r s).ecode = s.ecode := rfl
@[simp] theorem writeHcal_einfo (r : HCal) : (writeHcal r s).einfo = s.einfo := rfl
@[simp] theorem writeHcal_params (r : HCal) : (writeHcal r s).params = s.params := rfl
@[simp] theorem writeHcal_draws (r : HCal) : (writeHcal r s).draws = s.draws := rfl
@[simp] theorem writeHcal_pending (r : HCal) : (writeHcal r s).pending = s.pending := rfl
@[simp] theorem writeHcal_answers (r : HCal) : (writeHcal r s).answers = s.answers := rfl

@[simp] theorem writePcal_img (r : PCal) : (writePcal r s).img = s.img := rfl
@[simp] theorem writePcal_tcal (r : PCal) : (writePcal r s).tcal = s.tcal := rfl
@[simp] theorem writePcal_hcal (r : PCal) : (writePcal r s).hcal = s.hcal := rfl
@[simp] theorem writePcal_pcal (r : PCal) : (writePcal r s).pcal = some r := rfl
@[simp] theorem writePcal_rawT (r : PCal) : (writePcal r s).rawT = s.rawT := rfl
@[simp] theorem writePcal_rawH (r : PCal) : (writePcal r s).rawH = s.rawH := rfl
@[simp] theorem writePcal_rawP (r : PCal) : (writePcal r s).rawP = s.rawP := rfl
@[simp] theorem writePcal_tfine (r : PCal) : (writePcal r s).tfine = s.tfine := rfl
@[simp] theorem writePcal_tc (r : PCal) : (writePcal r s).tc = s.tc := rfl
@[simp] theorem writePcal_hum (r : PCal) : (writePcal r s).hum = s.hum := rfl
@[simp] theorem writePcal_press (r : PCal) : (writePcal r s).press = none := rfl
@[simp] theorem writePcal_err (r : PCal) : (writePcal r s).err = s.err := rfl
@[simp] theorem writePcal_ecode (r : PCal) : (writePcal r s).ecode = s.ecode := rfl
@[simp] theorem writePcal_einfo (r : PCal) : (writePcal r s).einfo = s.einfo := rfl
@[simp] theorem writePcal_params (r : PCal) : (writePcal r s).params = s.params := rfl
@[simp] theorem writePcal_draws (r : PCal) : (writePcal r s).draws = s.draws := rfl
@[simp] theorem writePcal_pending (r : PCal) : (writePcal r s).pending = s.pending := rfl
@[simp] theorem writePcal_answers (r : PCal) : (writePcal r s).answers = s.answers := rfl

@[simp] theorem writeRawT_img (v : BitVec 32) : (writeRawT v s).img = s.img := rfl
@[simp] theorem writeRawT_tcal (v : BitVec 32) : (writeRawT v s).tcal = s.tcal := rfl
@[simp] theorem writeRawT_hcal (v : BitVec 32) : (writeRawT v s).hcal = s.hcal := rfl
@[simp] theorem writeRawT_pcal (v : BitVec 32) : (writeRawT v s).pcal = s.pcal := rfl
@[simp] theorem writeRawT_rawT (v : BitVec 32) : (writeRawT v s).rawT = some v := rfl
@[simp] theorem writeRawT_rawH (v : BitVec 32) : (writeRawT v s).rawH = s.rawH := rfl
@[simp] theorem writeRawT_rawP (v : BitVec 32) : (writeRawT v s).rawP = s.rawP := rfl
@[simp] theorem writeRawT_tfine (v : BitVec 32) : (writeRawT v s).tfine = none := rfl
@[simp] theorem writeRawT_tc (v : BitVec 32) : (writeRawT v s).tc = none := rfl
@[simp] theorem writeRawT_hum (v : BitVec 32) : (writeRawT v s).hum = none := rfl
@[simp] theorem writeRawT_press (v : BitVec 32) : (writeRawT v s).press = none := rfl
@[simp] theorem writeRawT_err (v : BitVec 32) : (writeRawT v s).err = s.err := rfl
@[simp] theorem writeRawT_ecode (v : BitVec 32) : (writeRawT v s).ecode = s.ecode := rfl
@[simp] theorem writeRawT_einfo (v : BitVec 32) : (writeRawT v s).einfo = s.einfo := rfl
@[simp] theorem writeRawT_params (v : BitVec 32) : (writeRawT v s).params = s.params := rfl
@[simp] theorem writeRawT_draws (v : BitVec 32) : (writeRawT v s).draws = s.draws := rfl
@[simp] theorem writeRawT_pending (v : BitVec 32) : (writeRawT v s).pending = s.pending := rfl
@[simp] theorem writeRawT_answers (v : BitVec 32) : (writeRawT v s).answers = s.answers := rfl

@[simp] theorem writeRawH_img (v : BitVec 16) : (writeRawH v s).img = s.img := rfl
@[simp] theorem writeRawH_tcal (v : BitVec 16) : (writeRawH v s).tcal = s.tcal := rfl
@[simp] theorem writeRawH_hcal (v : BitVec 16) : (writeRawH v s).hcal = s.hcal := rfl
@[simp] theorem writeRawH_pcal (v : BitVec 16) : (writeRawH v s).pcal = s.pcal := rfl
@[simp] theorem writeRawH_rawT (v : BitVec 16) : (writeRawH v s).rawT = s.rawT := rfl
@[simp] theorem writeRawH_rawH (v : BitVec 16) : (writeRawH v s).rawH = some v := rfl
@[simp] theorem writeRawH_rawP (v : BitVec 16) : (writeRawH v s).rawP = s.rawP := rfl
@[simp] theorem writeRawH_tfine (v : BitVec 16) : (writeRawH v s).tfine = s.tfine := rfl
@[simp] theorem writeRawH_tc (v : BitVec 16) : (writeRawH v s).tc = s.tc := rfl
@[simp] theorem writeRawH_hum (v : BitVec 16) : (writeRawH v s).hum = none := rfl
@[simp] theorem writeRawH_press (v : BitVec 16) : (writeRawH v s).press = s.press := rfl
@[simp] theorem writeRawH_err (v : BitVec 16) : (writeRawH v s).err = s.err := rfl
@[simp] theorem writeRawH_ecode (v : BitVec 16) : (writeRawH v s).ecode = s.ecode := rfl
@[simp] theorem writeRawH_einfo (v : BitVec 16) : (writeRawH v s).einfo = s.einfo := rfl
@[simp] theorem writeRawH_params (v : BitVec 16) : (writeRawH v s).params = s.params := rfl
@[simp] theorem writeRawH_draws (v : BitVec 16) : (writeRawH v s).draws = s.draws := rfl
@[simp] theorem writeRawH_pending (v : BitVec 16) : (writeRawH v s).pending = s.pending := rfl
@[simp] theorem writeRawH_answers (v : BitVec 16) : (writeRawH v s).answers = s.answers := rfl

@[simp] theorem writeRawP_img (v : BitVec 32) : (writeRawP v s).img = s.img := rfl
@[simp] theorem writeRawP_tcal (v : BitVec 32) : (writeRawP v s).tcal = s.tcal := rfl
@[simp] theorem writeRawP_hcal (v : BitVec 32) : (writeRawP v s).hcal = s.hcal := rfl
@[simp] theorem writeRawP_pcal (v : BitVec 32) : (writeRawP v s).pcal = s.pcal := rfl
@[simp] theorem writeRawP_rawT (v : BitVec 32) : (writeRawP v s).rawT = s.rawT := rfl
@[simp] theorem writeRawP_rawH (v : BitVec 32) : (writeRawP v s).rawH = s.rawH := rfl
@[simp] theorem writeRawP_rawP (v : BitVec 32) : (writeRawP v s).rawP = some v := rfl
@[simp] theorem writeRawP_tfine (v : BitVec 32) : (writeRawP v s).tfine = s.tfine := rfl
@[simp] theorem writeRawP_tc (v : BitVec 32) : (writeRawP v s).tc = s.tc := rfl
@[simp] theorem writeRawP_hum (v : BitVec 32) : (writeRawP v s).hum = s.hum := rfl
@[simp] theorem writeRawP_press (v : BitVec 32) : (writeRawP v s).press = none := rfl
@[simp] theorem writeRawP_err (v : BitVec 32) : (writeRawP v s).err = s.err := rfl
@[simp] theorem writeRawP_ecode (v : BitVec 32) : (writeRawP v s).ecode = s.ecode := rfl
@[simp] theorem writeRawP_einfo (v : BitVec 32) : (writeRawP v s).einfo = s.einfo := rfl
@[simp] theorem writeRawP_params (v : BitVec 32) : (writeRawP v s).params = s.params := rfl
@[simp] theorem writeRawP_draws (v : BitVec 32) : (writeRawP v s).draws = s.draws := rfl
@[simp] theorem writeRawP_pending (v : BitVec 32) : (writeRawP v s).pending = s.pending := rfl
@[simp] theorem writeRawP_answers (v : BitVec 32) : (writeRawP v s).answers = s.answers := rfl

@[simp] theorem writeTfine_img (v : Bits64) : (writeTfine v s).img = s.img := rfl
@[simp] theorem writeTfine_tcal (v : Bits64) : (writeTfine v s).tcal = s.tcal := rfl
@[simp] theorem writeTfine_hcal (v : Bits64) : (writeTfine v s).hcal = s.hcal := rfl
@[simp] theorem writeTfine_pcal (v : Bits64) : (writeTfine v s).pcal = s.pcal := rfl
@[simp] theorem writeTfine_rawT (v : Bits64) : (writeTfine v s).rawT = s.rawT := rfl
@[simp] theorem writeTfine_rawH (v : Bits64) : (writeTfine v s).rawH = s.rawH := rfl
@[simp] theorem writeTfine_rawP (v : Bits64) : (writeTfine v s).rawP = s.rawP := rfl
@[simp] theorem writeTfine_tfine (v : Bits64) : (writeTfine v s).tfine = some v := rfl
@[simp] theorem writeTfine_tc (v : Bits64) : (writeTfine v s).tc = none := rfl
@[simp] theorem writeTfine_hum (v : Bits64) : (writeTfine v s).hum = none := rfl
@[simp] theorem writeTfine_press (v : Bits64) : (writeTfine v s).press = none := rfl
@[simp] theorem writeTfine_err (v : Bits64) : (writeTfine v s).err = s.err := rfl
@[simp] theorem writeTfine_ecode (v : Bits64) : (writeTfine v s).ecode = s.ecode := rfl
@[simp] theorem writeTfine_einfo (v : Bits64) : (writeTfine v s).einfo = s.einfo := rfl
@[simp] theorem writeTfine_params (v : Bits64) : (writeTfine v s).params = s.params := rfl
@[simp] theorem writeTfine_draws (v : Bits64) : (writeTfine v s).draws = s.draws := rfl
@[simp] theorem writeTfine_pending (v : Bits64) : (writeTfine v s).pending = s.pending := rfl
@[simp] theorem writeTfine_answers (v : Bits64) : (writeTfine v s).answers = s.answers := rfl

@[simp] theorem writeTc_img (v : Bits64) : (writeTc v s).img = s.img := rfl
@[simp] theorem writeTc_tcal (v : Bits64) : (writeTc v s).tcal = s.tcal := rfl
@[simp] theorem writeTc_hcal (v : Bits64) : (writeTc v s).hcal = s.hcal := rfl
@[simp] theorem writeTc_pcal (v : Bits64) : (writeTc v s).pcal = s.pcal := rfl
@[simp] theorem writeTc_rawT (v : Bits64) : (writeTc v s).rawT = s.rawT := rfl
@[simp] theorem writeTc_rawH (v : Bits64) : (writeTc v s).rawH = s.rawH := rfl
@[simp] theorem writeTc_rawP (v : Bits64) : (writeTc v s).rawP = s.rawP := rfl
@[simp] theorem writeTc_tfine (v : Bits64) : (writeTc v s).tfine = s.tfine := rfl
@[simp] theorem writeTc_tc (v : Bits64) : (writeTc v s).tc = some v := rfl
@[simp] theorem writeTc_hum (v : Bits64) : (writeTc v s).hum = none := rfl
@[simp] theorem writeTc_press (v : Bits64) : (writeTc v s).press = s.press := rfl
@[simp] theorem writeTc_err (v : Bits64) : (writeTc v s).err = s.err := rfl
@[simp] theorem writeTc_ecode (v : Bits64) : (writeTc v s).ecode = s.ecode := rfl
@[simp] theorem writeTc_einfo (v : Bits64) : (writeTc v s).einfo = s.einfo := rfl
@[simp] theorem writeTc_params (v : Bits64) : (writeTc v s).params = s.params := rfl
@[simp] theorem writeTc_draws (v : Bits64) : (writeTc v s).draws = s.draws := rfl
@[simp] theorem writeTc_pending (v : Bits64) : (writeTc v s).pending = s.pending := rfl
@[simp] theorem writeTc_answers (v : Bits64) : (writeTc v s).answers = s.answers := rfl

@[simp] theorem writeHum_img (v : Bits64) : (writeHum v s).img = s.img := rfl
@[simp] theorem writeHum_tcal (v : Bits64) : (writeHum v s).tcal = s.tcal := rfl
@[simp] theorem writeHum_hcal (v : Bits64) : (writeHum v s).hcal = s.hcal := rfl
@[simp] theorem writeHum_pcal (v : Bits64) : (writeHum v s).pcal = s.pcal := rfl
@[simp] theorem writeHum_rawT (v : Bits64) : (writeHum v s).rawT = s.rawT := rfl
@[simp] theorem writeHum_rawH (v : Bits64) : (writeHum v s).rawH = s.rawH := rfl
@[simp] theorem writeHum_rawP (v : Bits64) : (writeHum v s).rawP = s.rawP := rfl
@[simp] theorem writeHum_tfine (v : Bits64) : (writeHum v s).tfine = s.tfine := rfl
@[simp] theorem writeHum_tc (v : Bits64) : (writeHum v s).tc = s.tc := rfl
@[simp] theorem writeHum_hum (v : Bits64) : (writeHum v s).hum = some v := rfl
@[simp] theorem writeHum_press (v : Bits64) : (writeHum v s).press = s.press := rfl
@[simp] theorem writeHum_err (v : Bits64) : (writeHum v s).err = s.err := rfl
@[simp] theorem writeHum_ecode (v : Bits64) : (writeHum v s).ecode = s.ecode := rfl
@[simp] theorem writeHum_einfo (v : Bits64) : (writeHum v s).einfo = s.einfo := rfl
@[simp] theorem writeHum_params (v : Bits64) : (writeHum v s).params = s.params := rfl
@[simp] theorem writeHum_draws (v : Bits64) : (writeHum v s).draws = s.draws := rfl
@[simp] theorem writeHum_pending (v : Bits64) : (writeHum v s).pending = s.pending := rfl
@[simp] theorem writeHum_answers (v : Bits64) : (writeHum v s).answers = s.answers := rfl

@[simp] theorem writePress_img (v : Bits64) : (writePress v s).img = s.img := rfl
@[simp] theorem writePress_tcal (v : Bits64) : (writePress v s).tcal = s.tcal := rfl
@[simp] theorem writePress_hcal (v : Bits64) : (writePress v s).hcal = s.hcal := rfl
@[simp] theorem writePress_pcal (v : Bits64) : (writePress v s).pcal = s.pcal := rfl
@[simp] theorem writePress_rawT (v : Bits64) : (writePress v s).rawT = s.rawT := rfl
@[simp] theorem writePress_rawH (v : Bits64) : (writePress v s).rawH = s.rawH := rfl
@[simp] theorem writePress_rawP (v : Bits64) : (writePress v s).rawP = s.rawP := rfl
@[simp] theorem writePress_tfine (v : Bits64) : (writePress v s).tfine = s.tfine := rfl
@[simp] theorem writePress_tc (v : Bits64) : (writePress v s).tc = s.tc := rfl
@[simp] theorem writePress_hum (v : Bits64) : (writePress v s).hum = s.hum := rfl
@[simp] theorem writePress_press (v : Bits64) : (writePress v s).press = some v := rfl
@[simp] theorem writePress_err (v : Bits64) : (writePress v s).err = s.err := rfl
@[simp] theorem writePress_ecode (v : Bits64) : (writePress v s).ecode = s.ecode := rfl
@[simp] theorem writePress_einfo (v : Bits64) : (writePress v s).einfo = s.einfo := rfl
@[simp] theorem writePress_params (v : Bits64) : (writePress v s).params = s.params := rfl
@[simp] theorem writePress_draws (v : Bits64) : (writePress v s).draws = s.draws := rfl
@[simp] theorem writePress_pending (v : Bits64) : (writePress v s).pending = s.pending := rfl
@[simp] theorem writePress_answers (v : Bits64) : (writePress v s).answers = s.answers := rfl

@[simp] theorem clearFault_img : (clearFault s).img = s.img := rfl
@[simp] theorem clearFault_tcal : (clearFault s).tcal = s.tcal := rfl
@[simp] theorem clearFault_hcal : (clearFault s).hcal = s.hcal := rfl
@[simp] theorem clearFault_pcal : (clearFault s).pcal = s.pcal := rfl
@[simp] theorem clearFault_rawT : (clearFault s).rawT = s.rawT := rfl
@[simp] theorem clearFault_rawH : (clearFault s).rawH = s.rawH := rfl
@[simp] theorem clearFault_rawP : (clearFault s).rawP = s.rawP := rfl
@[simp] theorem clearFault_tfine : (clearFault s).tfine = s.tfine := rfl
@[simp] theorem clearFault_tc : (clearFault s).tc = s.tc := rfl
@[simp] theorem clearFault_hum : (clearFault s).hum = s.hum := rfl
@[simp] theorem clearFault_press : (clearFault s).press = s.press := rfl
@[simp] theorem clearFault_err : (clearFault s).err = false := rfl
@[simp] theorem clearFault_ecode : (clearFault s).ecode = 0#3 := rfl
@[simp] theorem clearFault_einfo : (clearFault s).einfo = 0#12 := rfl
@[simp] theorem clearFault_params : (clearFault s).params = s.params := rfl
@[simp] theorem clearFault_draws : (clearFault s).draws = s.draws := rfl
@[simp] theorem clearFault_pending : (clearFault s).pending = s.pending := rfl
@[simp] theorem clearFault_answers : (clearFault s).answers = s.answers := rfl

@[simp] theorem resetBlock_img : (resetBlock s).img = [] := rfl
@[simp] theorem resetBlock_tcal : (resetBlock s).tcal = none := rfl
@[simp] theorem resetBlock_hcal : (resetBlock s).hcal = none := rfl
@[simp] theorem resetBlock_pcal : (resetBlock s).pcal = none := rfl
@[simp] theorem resetBlock_rawT : (resetBlock s).rawT = none := rfl
@[simp] theorem resetBlock_rawH : (resetBlock s).rawH = none := rfl
@[simp] theorem resetBlock_rawP : (resetBlock s).rawP = none := rfl
@[simp] theorem resetBlock_tfine : (resetBlock s).tfine = none := rfl
@[simp] theorem resetBlock_tc : (resetBlock s).tc = none := rfl
@[simp] theorem resetBlock_hum : (resetBlock s).hum = none := rfl
@[simp] theorem resetBlock_press : (resetBlock s).press = none := rfl
@[simp] theorem resetBlock_err : (resetBlock s).err = false := rfl
@[simp] theorem resetBlock_ecode : (resetBlock s).ecode = 0#3 := rfl
@[simp] theorem resetBlock_einfo : (resetBlock s).einfo = 0#12 := rfl
@[simp] theorem resetBlock_params : (resetBlock s).params = s.params := rfl
@[simp] theorem resetBlock_draws : (resetBlock s).draws = s.draws := rfl
@[simp] theorem resetBlock_pending : (resetBlock s).pending = s.pending := rfl
@[simp] theorem resetBlock_answers : (resetBlock s).answers = s.answers := rfl

variable (e : Bool) (c : BitVec 3) (i : BitVec 12)

@[simp] theorem withRecord_img : (s.withRecord e c i).img = s.img := rfl
@[simp] theorem withRecord_tcal : (s.withRecord e c i).tcal = s.tcal := rfl
@[simp] theorem withRecord_hcal : (s.withRecord e c i).hcal = s.hcal := rfl
@[simp] theorem withRecord_pcal : (s.withRecord e c i).pcal = s.pcal := rfl
@[simp] theorem withRecord_rawT : (s.withRecord e c i).rawT = s.rawT := rfl
@[simp] theorem withRecord_rawH : (s.withRecord e c i).rawH = s.rawH := rfl
@[simp] theorem withRecord_rawP : (s.withRecord e c i).rawP = s.rawP := rfl
@[simp] theorem withRecord_tfine : (s.withRecord e c i).tfine = s.tfine := rfl
@[simp] theorem withRecord_tc : (s.withRecord e c i).tc = s.tc := rfl
@[simp] theorem withRecord_hum : (s.withRecord e c i).hum = s.hum := rfl
@[simp] theorem withRecord_press : (s.withRecord e c i).press = s.press := rfl
@[simp] theorem withRecord_err : (s.withRecord e c i).err = e := rfl
@[simp] theorem withRecord_ecode : (s.withRecord e c i).ecode = c := rfl
@[simp] theorem withRecord_einfo : (s.withRecord e c i).einfo = i := rfl
@[simp] theorem withRecord_params : (s.withRecord e c i).params = s.params := rfl
@[simp] theorem withRecord_draws : (s.withRecord e c i).draws = s.draws := rfl
@[simp] theorem withRecord_pending : (s.withRecord e c i).pending = s.pending := rfl
@[simp] theorem withRecord_answers : (s.withRecord e c i).answers = s.answers := rfl

end Sys2Proof.Machine
end

