-- ==== Sys2Proof/Laws/Ops.lean ====
section
/-!
SUPPORT. What each shared operation can do, said once: recording a fault, counting a draw, delivering a result,
reading a record or a sample from the image.
-/

namespace Sys2Proof.Machine

/-- Rule R152: the record is written when none stands, and nothing changes when one does. -/
theorem raiseFault_cases (f : FaultKind) (info : BitVec 12) (s : State) :
    (s.err = true ∧ raiseFault f info s = s)
      ∨ (s.err = false ∧ raiseFault f info s = s.withRecord true f.code info) := by
  cases h : s.err
  · exact .inr ⟨rfl, by simp [raiseFault, h, State.withRecord]⟩
  · exact .inl ⟨rfl, by simp [raiseFault, h]⟩

/-- After a fault a fault is recorded (rule R152). -/
@[simp] theorem raiseFault_err (f : FaultKind) (info : BitVec 12) (s : State) :
    (raiseFault f info s).err = true := by
  rcases raiseFault_cases f info s with ⟨h, e⟩ | ⟨_, e⟩
  · rw [e, h]
  · rw [e, withRecord_err]

@[simp] theorem raiseFault_img (f : FaultKind) (info : BitVec 12) (s : State) :
    (raiseFault f info s).img = s.img := by
  unfold raiseFault; split <;> rfl

@[simp] theorem raiseFault_tcal (f : FaultKind) (info : BitVec 12) (s : State) :
    (raiseFault f info s).tcal = s.tcal := by
  unfold raiseFault; split <;> rfl

@[simp] theorem raiseFault_hcal (f : FaultKind) (info : BitVec 12) (s : State) :
    (raiseFault f info s).hcal = s.hcal := by
  unfold raiseFault; split <;> rfl

@[simp] theorem raiseFault_pcal (f : FaultKind) (info : BitVec 12) (s : State) :
    (raiseFault f info s).pcal = s.pcal := by
  unfold raiseFault; split <;> rfl

@[simp] theorem raiseFault_rawT (f : FaultKind) (info : BitVec 12) (s : State) :
    (raiseFault f info s).rawT = s.rawT := by
  unfold raiseFault; split <;> rfl

@[simp] theorem raiseFault_rawH (f : FaultKind) (info : BitVec 12) (s : State) :
    (raiseFault f info s).rawH = s.rawH := by
  unfold raiseFault; split <;> rfl

@[simp] theorem raiseFault_rawP (f : FaultKind) (info : BitVec 12) (s : State) :
    (raiseFault f info s).rawP = s.rawP := by
  unfold raiseFault; split <;> rfl

@[simp] theorem raiseFault_tfine (f : FaultKind) (info : BitVec 12) (s : State) :
    (raiseFault f info s).tfine = s.tfine := by
  unfold raiseFault; split <;> rfl

@[simp] theorem raiseFault_tc (f : FaultKind) (info : BitVec 12) (s : State) :
    (raiseFault f info s).tc = s.tc := by
  unfold raiseFault; split <;> rfl

@[simp] theorem raiseFault_hum (f : FaultKind) (info : BitVec 12) (s : State) :
    (raiseFault f info s).hum = s.hum := by
  unfold raiseFault; split <;> rfl

@[simp] theorem raiseFault_press (f : FaultKind) (info : BitVec 12) (s : State) :
    (raiseFault f info s).press = s.press := by
  unfold raiseFault; split <;> rfl

@[simp] theorem raiseFault_params (f : FaultKind) (info : BitVec 12) (s : State) :
    (raiseFault f info s).params = s.params := by
  unfold raiseFault; split <;> rfl

@[simp] theorem raiseFault_draws (f : FaultKind) (info : BitVec 12) (s : State) :
    (raiseFault f info s).draws = s.draws := by
  unfold raiseFault; split <;> rfl

@[simp] theorem raiseFault_pending (f : FaultKind) (info : BitVec 12) (s : State) :
    (raiseFault f info s).pending = s.pending := by
  unfold raiseFault; split <;> rfl

@[simp] theorem raiseFault_answers (f : FaultKind) (info : BitVec 12) (s : State) :
    (raiseFault f info s).answers = s.answers := by
  unfold raiseFault; split <;> rfl

/-- A draw is counted for a NaN alone (rule R79). -/
theorem countDraw_eq (x : Fp) (s : State) :
    countDraw x s = { s with draws := if x = .nan then s.draws + 1 else s.draws } := by
  cases x <;> simp [countDraw]

@[simp] theorem countDraw_img (x : Fp) (s : State) : (countDraw x s).img = s.img := by cases x <;> rfl
@[simp] theorem countDraw_tcal (x : Fp) (s : State) : (countDraw x s).tcal = s.tcal := by cases x <;> rfl
@[simp] theorem countDraw_hcal (x : Fp) (s : State) : (countDraw x s).hcal = s.hcal := by cases x <;> rfl
@[simp] theorem countDraw_pcal (x : Fp) (s : State) : (countDraw x s).pcal = s.pcal := by cases x <;> rfl
@[simp] theorem countDraw_rawT (x : Fp) (s : State) : (countDraw x s).rawT = s.rawT := by cases x <;> rfl
@[simp] theorem countDraw_rawH (x : Fp) (s : State) : (countDraw x s).rawH = s.rawH := by cases x <;> rfl
@[simp] theorem countDraw_rawP (x : Fp) (s : State) : (countDraw x s).rawP = s.rawP := by cases x <;> rfl
@[simp] theorem countDraw_tfine (x : Fp) (s : State) : (countDraw x s).tfine = s.tfine := by cases x <;> rfl
@[simp] theorem countDraw_tc (x : Fp) (s : State) : (countDraw x s).tc = s.tc := by cases x <;> rfl
@[simp] theorem countDraw_hum (x : Fp) (s : State) : (countDraw x s).hum = s.hum := by cases x <;> rfl
@[simp] theorem countDraw_press (x : Fp) (s : State) : (countDraw x s).press = s.press := by cases x <;> rfl
@[simp] theorem countDraw_err (x : Fp) (s : State) : (countDraw x s).err = s.err := by cases x <;> rfl
@[simp] theorem countDraw_ecode (x : Fp) (s : State) : (countDraw x s).ecode = s.ecode := by cases x <;> rfl
@[simp] theorem countDraw_einfo (x : Fp) (s : State) : (countDraw x s).einfo = s.einfo := by cases x <;> rfl
@[simp] theorem countDraw_params (x : Fp) (s : State) : (countDraw x s).params = s.params := by cases x <;> rfl
@[simp] theorem countDraw_pending (x : Fp) (s : State) : (countDraw x s).pending = s.pending := by cases x <;> rfl
@[simp] theorem countDraw_answers (x : Fp) (s : State) : (countDraw x s).answers = s.answers := by cases x <;> rfl

/-- Every pattern built from a draw is a quiet NaN (rule R79). -/
theorem isQuietNaN_quietNaN (c : BitVec 64) : isQuietNaN (quietNaN c) = true := by
  have e : (0x7FF8000000000000#64).extractLsb' 52 11 = BitVec.allOnes 11 := by decide
  have h : (quietNaN c).extractLsb' 52 11 = 0x7FF#11 := by
    rw [quietNaN, BitVec.extractLsb'_or, e, BitVec.or_allOnes]; rfl
  have h' : (quietNaN c).getLsbD 51 = true := by
    rw [quietNaN, BitVec.getLsbD_or]
    exact (Bool.or_eq_true _ _).mpr (.inr (by decide))
  rw [isQuietNaN, h, h']
  rfl

/-- A delivered pattern is the delivered form of its datum (rules R79, R83). -/
theorem isResult_resultBits (x : Fp) (s : State) : isResult x (resultBits x s) = true := by
  cases x
  · exact isQuietNaN_quietNaN _
  · exact beq_self_eq_true _
  · exact beq_self_eq_true _

/-- Delivery to TFINE: the result in TFINE, what is computed from it gone, a draw counted for a NaN. -/
theorem deliverTfine_eq (x : Fp) (s : State) :
    deliverTfine x s =
      { s with
        tfine := some (resultBits x s), tc := none, hum := none, press := none
        draws := if x = .nan then s.draws + 1 else s.draws } := by
  rw [deliverTfine, countDraw_eq]; rfl

/-- Delivery to TC: the result in TC, HUM gone, a draw counted for a NaN. -/
theorem deliverTc_eq (x : Fp) (s : State) :
    deliverTc x s =
      { s with
        tc := some (resultBits x s), hum := none
        draws := if x = .nan then s.draws + 1 else s.draws } := by
  rw [deliverTc, countDraw_eq]; rfl

/-- Delivery to HUM: the result in HUM, a draw counted for a NaN. -/
theorem deliverHum_eq (x : Fp) (s : State) :
    deliverHum x s =
      { s with
        hum := some (resultBits x s)
        draws := if x = .nan then s.draws + 1 else s.draws } := by
  rw [deliverHum, countDraw_eq]; rfl

/-- Delivery to PRESS: the result in PRESS, a draw counted for a NaN. -/
theorem deliverPress_eq (x : Fp) (s : State) :
    deliverPress x s =
      { s with
        press := some (resultBits x s)
        draws := if x = .nan then s.draws + 1 else s.draws } := by
  rw [deliverPress, countDraw_eq]; rfl

/-- A pair is read exactly when both its cells are valid (rules R43, R155). -/
theorem readPair_eq_some (p : Params) (m : Memory) (lsb msb : Nat) (w : BitVec 16) :
    readPair p m lsb msb = some w ↔
      ∃ l h, Memory.read m lsb = some l ∧ Memory.read m msb = some h
        ∧ w = if p.cal16LsbFirst then assemble16 h l else assemble16 l h := by
  unfold readPair
  split
  · rename_i l h el eh
    rw [Option.some.injEq]
    exact ⟨fun e => ⟨l, h, el, eh, e.symm⟩, by rintro ⟨l', h', e1, e2, rfl⟩; simp_all⟩
  · rename_i hn
    exact ⟨fun e => absurd e (by simp), by rintro ⟨l, h, e1, e2, _⟩; exact absurd e2 (hn l h e1)⟩

/-- A 20-bit sample is read exactly when its three cells are valid (rules R120, R122). -/
theorem readRaw20_eq_some (m : Memory) (a b c : Nat) (v : BitVec 32) :
    readRaw20 m a b c = some v ↔
      ∃ x y z, Memory.read m a = some x ∧ Memory.read m b = some y ∧ Memory.read m c = some z
        ∧ v = raw20 x y z := by
  unfold readRaw20
  cases Memory.read m a <;> cases Memory.read m b <;> cases Memory.read m c <;> simp [eq_comm (a := v)]

/-- A 16-bit sample is read exactly when its two cells are valid (rule R121). -/
theorem readRaw16_eq_some (m : Memory) (a b : Nat) (v : BitVec 16) :
    readRaw16 m a b = some v ↔
      ∃ x y, Memory.read m a = some x ∧ Memory.read m b = some y ∧ v = raw16 x y := by
  unfold readRaw16
  cases Memory.read m a <;> cases Memory.read m b <;> simp [eq_comm (a := v)]

end Sys2Proof.Machine
end

