-- ==== Sys2Proof/Laws/PerInstr.lean ====
section
/-!
SUPPORT. What holds of every operation as a piece of syntax, one lemma per constructor.
-/

namespace Sys2Proof.Laws.RoundTrip

/-- The operation is well formed and its opcode decodes to it (rules R61, R62, R63). -/
def Statement (i : Instr) : Prop :=
  i.wf = true ∧ decode (encode i) = some i

theorem clrCyc : Statement .clrCyc := ⟨rfl, rfl⟩
theorem clrAll : Statement .clrAll := ⟨rfl, rfl⟩
theorem clrErr : Statement .clrErr := ⟨rfl, rfl⟩
theorem unpkT : Statement .unpkT := ⟨rfl, rfl⟩
theorem unpkH : Statement .unpkH := ⟨rfl, rfl⟩
theorem unpkP : Statement .unpkP := ⟨rfl, rfl⟩
theorem asmT : Statement .asmT := ⟨rfl, rfl⟩
theorem asmH : Statement .asmH := ⟨rfl, rfl⟩
theorem asmP : Statement .asmP := ⟨rfl, rfl⟩
theorem cmpTf : Statement .cmpTf := ⟨rfl, rfl⟩
theorem cmpTc : Statement .cmpTc := ⟨rfl, rfl⟩
theorem cmpH : Statement .cmpH := ⟨rfl, rfl⟩
theorem cmpP : Statement .cmpP := ⟨rfl, rfl⟩

end Sys2Proof.Laws.RoundTrip
end

