-- ==== Sys2Proof/Laws/Step.lean ====
section
/-!
SUPPORT. Inversion of the step and of the operations: what a next state can be, said once, so that invariants are
short case analyses.
-/

namespace Sys2Proof.Machine

/-- What an operation that unpacks, assembles or compensates can do: deliver, or record InputNotValid. The state it
answers is one of the named updates of its operands. -/
theorem exec_cases (i : Instr) (s t : State) (h : exec i s = .next t) :
    (needsInputs i = true ∧ t = raiseInputNotValid i s)
      ∨ (i = .clrCyc ∧ execClrCyc s = .next t) ∨ (i = .clrAll ∧ execClrAll s = .next t)
      ∨ (i = .clrErr ∧ t = clearFault s)
      ∨ (i = .unpkT ∧ ∃ r, readTcal s.params s.img = some r ∧ t = writeTcal r s)
      ∨ (i = .unpkH ∧ ∃ r, readHcal s.img = some r ∧ t = writeHcal r s)
      ∨ (i = .unpkP ∧ ∃ r, readPcal s.params s.img = some r ∧ t = writePcal r s)
      ∨ (i = .asmT ∧ ∃ v, readRaw20 s.img 0x22 0x23 0x24 = some v ∧ t = writeRawT v s)
      ∨ (i = .asmH ∧ ∃ v, readRaw16 s.img 0x25 0x26 = some v ∧ t = writeRawH v s)
      ∨ (i = .asmP ∧ ∃ v, readRaw20 s.img 0x1F 0x20 0x21 = some v ∧ t = writeRawP v s)
      ∨ (i = .cmpTf ∧ ∃ r c, s.rawT = some r ∧ s.tcal = some c ∧ t = deliverTfine (fineTemperature r c) s)
      ∨ (i = .cmpTc ∧ ∃ x, s.tfine = some x ∧ t = deliverTc (temperatureCelsius (Fp.ofBits x)) s)
      ∨ (i = .cmpH ∧ ∃ r c x, s.rawH = some r ∧ s.hcal = some c ∧ s.tc = some x
          ∧ t = deliverHum (humidityPercent r c (Fp.ofBits x)) s)
      ∨ (i = .cmpP ∧ ∃ r c x, s.rawP = some r ∧ s.pcal = some c ∧ s.tfine = some x
          ∧ t = deliverPress (pressurePascal s.params r c (Fp.ofBits x)) s) := by
  cases i <;> simp only [exec] at h
  case clrCyc => simp [h]
  case clrAll => simp [h]
  case clrErr => simp only [execClrErr] at h; injection h with h; simp [h]
  case unpkT => unfold execUnpkT at h; split at h <;> injection h with h <;> simp_all [needsInputs]
  case unpkH => unfold execUnpkH at h; split at h <;> injection h with h <;> simp_all [needsInputs]
  case unpkP => unfold execUnpkP at h; split at h <;> injection h with h <;> simp_all [needsInputs]
  case asmT => unfold execAsmT at h; split at h <;> injection h with h <;> simp_all [needsInputs]
  case asmH => unfold execAsmH at h; split at h <;> injection h with h <;> simp_all [needsInputs]
  case asmP => unfold execAsmP at h; split at h <;> injection h with h <;> simp_all [needsInputs]
  case cmpTf => unfold execCmpTf at h; split at h <;> injection h with h <;> simp_all [needsInputs]
  case cmpTc => unfold execCmpTc at h; split at h <;> injection h with h <;> simp_all [needsInputs]
  case cmpH => unfold execCmpH at h; split at h <;> injection h with h <;> simp_all [needsInputs]
  case cmpP => unfold execCmpP at h; split at h <;> injection h with h <;> simp_all [needsInputs]

/-- What a step can be: nothing pending and nothing changed, or the first pending transaction performed. -/
theorem step_cases (s t : State) (h : step s = .next t) :
    (s.pending = [] ∧ t = s)
      ∨ ∃ e rest, s.pending = e :: rest ∧ perform e { s with pending := rest } = .next t := by
  unfold step at h
  split at h
  · injection h with h; exact .inl ⟨by assumption, h.symm⟩
  · exact .inr ⟨_, _, by assumption, h⟩

/-- What a host event can do (rules R91, R93, R170). -/
theorem perform_cases (e : HostEvent) (s t : State) (h : perform e s = .next t) :
    (∃ a d, e = .write a d ∧ a.toNat ≤ 0x0FF ∧ t = storeCell a.toNat (d.setWidth 8) s)
      ∨ (∃ d i, e = .write cmdAddr d ∧ decode (opcodeOfDatum d) = some i ∧ exec i s = .next t)
      ∨ (∃ d, e = .write cmdAddr d ∧ decode (opcodeOfDatum d) = none
          ∧ t = raiseFault .illegalOperation ((opcodeOfDatum d).setWidth 12) s)
      ∨ (∃ d, e = .write tfineAddr d ∧ t = writeTfine d s)
      ∨ (∃ d, e = .write tcAddr d ∧ t = writeTc d s)
      ∨ (∃ a d, e = .write a d ∧ unwritable a = true ∧ t = raiseFault .badHostAccess a s)
      ∨ (∃ a, e = .read a ∧ t = hostRead a s)
      ∨ (e = .reset ∧ t = resetBlock s) := by
  cases e with
  | read a => simp only [perform] at h; injection h with h; simp [h]
  | reset => simp only [perform] at h; injection h with h; simp [h]
  | write a d =>
    simp only [perform, hostWrite] at h
    split at h
    · rename_i ha; injection h with h; exact .inl ⟨a, d, rfl, ha, h.symm⟩
    · split at h
      · rename_i ha; subst ha
        unfold startOperation at h
        split at h
        · exact .inr (.inl ⟨d, _, rfl, by assumption, h⟩)
        · injection h with h; exact .inr (.inr (.inl ⟨d, rfl, by assumption, h.symm⟩))
      · split at h
        · rename_i ha; subst ha; injection h with h; simp [h]
        · split at h
          · rename_i ha; subst ha; injection h with h; simp [h]
          · injection h with h
            refine .inr (.inr (.inr (.inr (.inr (.inl ⟨a, d, rfl, ?_, h.symm⟩)))))
            simp_all [unwritable, cmdAddr, tfineAddr, tcAddr]

/-- The host addresses at which the table of rule R28 has no data register: the image, STATUS, CMD and the unmapped
addresses. -/
theorem dataRegAt_eq_none_iff (h : HostAddr) :
    dataRegAt h = none ↔
      h.toNat ≤ 0x10F ∨ (0x113 ≤ h.toNat ∧ h.toNat ≤ 0x11F) ∨ (0x127 ≤ h.toNat ∧ h.toNat ≤ 0x12F)
        ∨ (0x13A ≤ h.toNat ∧ h.toNat ≤ 0x13F) ∨ (0x143 ≤ h.toNat ∧ h.toNat ≤ 0x14F) ∨ 0x154 ≤ h.toNat := by
  unfold dataRegAt
  generalize h.toNat = n
  split <;> simp only [reduceCtorEq, false_iff, true_iff, imp_false] at * <;> omega

end Sys2Proof.Machine
end

