-- ==== Sys2Proof/Tests/Slice0.lean ====
section
/-!
SUPPORT. The model's own tests: opcodes written out from rule R62, the refusals of the well-formedness checks, test
vectors of 95_test_vectors.md (each named where it is used), and for every statement with hypotheses a witness that
meets them.
-/

namespace Sys2Proof.Tests

open Sys2Proof Sys2Proof.Machine

/-! ### Helpers -/

/-- An image from addresses and bytes. -/
def imageOf (l : List (Nat × Nat)) : Memory :=
  l.map fun c => (c.1, BitVec.ofNat 8 c.2)

/-- The next state, where there is one. -/
def nextOf (o : Host.Outcome State Fault Refusal) : Option State :=
  match o with
  | .next t => some t
  | .fault _ => none
  | .refused _ => none

/-- The bytes of vector V-U1 with the raw temperature bytes of V-A1. -/
def imageT : Memory :=
  imageOf [(0x22, 0x66), (0x23, 0x4B), (0x24, 0x80), (0x8A, 0x84), (0x8B, 0x67), (0x8C, 0xCE), (0xE9, 0xA8),
    (0xEA, 0x61)]

/-- The bytes of vectors V-U2 and V-A6. -/
def imageH : Memory :=
  imageOf [(0x25, 0x5B), (0x26, 0x2E), (0xE1, 0x3F), (0xE2, 0x5D), (0xE3, 0x31), (0xE4, 0x00), (0xE5, 0x2D),
    (0xE6, 0x14), (0xE7, 0x78), (0xE8, 0x9C)]

/-- The bytes of vectors V-U3 and V-A9. -/
def imageP : Memory :=
  imageOf [(0x1F, 0x4F), (0x20, 0x1A), (0x21, 0x30), (0x8E, 0xA6), (0x8F, 0x8D), (0x90, 0x7D), (0x91, 0xD7),
    (0x92, 0x58), (0x94, 0x8E), (0x95, 0x1C), (0x96, 0x7E), (0x97, 0xFF), (0x98, 0x1F), (0x99, 0x1E), (0x9C, 0x9F),
    (0x9D, 0xFE), (0x9E, 0xF4), (0x9F, 0xF0), (0xA0, 0x1E)]

def stateT : State := { State.reset with img := imageT }
def stateH : State := { State.reset with img := imageH }
def stateP : State := { State.reset with img := imageP }

/-- The records of rules R111, R112 and R113. -/
def tcalEx : TCal := { par_t1 := 25000#16, par_t2 := 26500#16, par_t3 := 0xCE#8 }
def hcalEx : HCal :=
  { par_h1 := 797#16, par_h2 := 1013#16, par_h3 := 0#8, par_h4 := 45#8, par_h5 := 20#8, par_h6 := 120#8,
    par_h7 := 0x9C#8 }
def pcalEx : PCal :=
  { par_p1 := 36262#16, par_p2 := 0xD77D#16, par_p3 := 88#8, par_p4 := 7310#16, par_p5 := 0xFF7E#16, par_p6 := 30#8,
    par_p7 := 31#8, par_p8 := 0xFE9F#16, par_p9 := 0xF0F4#16, par_p10 := 30#8 }

/-- Registers for the compensation operations (vectors V-T1, V-H1, V-P1). -/
def stateC : State :=
  { State.reset with
    tcal := some tcalEx, hcal := some hcalEx, pcal := some pcalEx
    rawT := some 419000#32, rawH := some 23342#16, rawP := some 324003#32
    tfine := some 0x40FFBB4148113000#64, tc := some 0x4039629AA00DC000#64 }

/-- A state in which every operation has its inputs. -/
def ready (i : Instr) : State :=
  match i with
  | .unpkT | .asmT => stateT
  | .unpkH | .asmH => stateH
  | .unpkP | .asmP => stateP
  | .cmpTf | .cmpTc | .cmpH | .cmpP => stateC
  | .clrCyc | .clrAll | .clrErr => State.reset

/-! ### Decoding: each opcode written out from the table of rule R62 -/

theorem test_decode_clrCyc : decode 0b00000001#8 = some .clrCyc := by decide
theorem test_decode_clrAll : decode 0b00000010#8 = some .clrAll := by decide
theorem test_decode_clrErr : decode 0b00000011#8 = some .clrErr := by decide
theorem test_decode_unpkT : decode 0b00010000#8 = some .unpkT := by decide
theorem test_decode_unpkH : decode 0b00010001#8 = some .unpkH := by decide
theorem test_decode_unpkP : decode 0b00010010#8 = some .unpkP := by decide
theorem test_decode_asmT : decode 0b00100000#8 = some .asmT := by decide
theorem test_decode_asmH : decode 0b00100001#8 = some .asmH := by decide
theorem test_decode_asmP : decode 0b00100010#8 = some .asmP := by decide
theorem test_decode_cmpTf : decode 0b00110000#8 = some .cmpTf := by decide
theorem test_decode_cmpTc : decode 0b00110001#8 = some .cmpTc := by decide
theorem test_decode_cmpH : decode 0b00110010#8 = some .cmpH := by decide
theorem test_decode_cmpP : decode 0b00110011#8 = some .cmpP := by decide

/-- The values next to the assigned ones, and 0x00, are illegal (rule R64). -/
theorem test_decode_illegal :
    ∀ n ∈ [0x00, 0x04, 0x0F, 0x13, 0x1F, 0x23, 0x2F, 0x34, 0xFF], decode (BitVec.ofNat 8 n) = none := by decide

/-! ### Well-formedness: each check refuses an ill-formed term (rules R114, R137) -/

theorem test_wf_instr : Instr.wf .cmpP = true := by decide
theorem test_wf_default : paramsDefault.wf = true := by decide
theorem test_wf_p1_moved : ({ pcalMapDefault with par_p1 := ⟨0x8F, 0x8E⟩ } : PcalMap).keepsP1 = false := by decide
theorem test_wf_p10_moved : ({ pcalMapDefault with par_p10 := 0x93 } : PcalMap).keepsP10 = false := by decide
theorem test_wf_twice : ({ pcalMapDefault with par_p3 := 0x90 } : PcalMap).distinct = false := by decide
theorem test_wf_outside : ({ pcalMapDefault with par_p3 := 0xA1 } : PcalMap).inRange = false := by decide
theorem test_wf_p7_above :
    ({ pcalMapDefault with par_p6 := 0x98, par_p7 := 0x99 } : PcalMap).p7BelowP6 = false := by decide
theorem test_wf_map_refused : ({ pcalMapDefault with par_p3 := 0x90 } : PcalMap).wf = false := by decide
theorem test_wf_no_raw_term : (PressExpr.sub .rawP (.lit 1048576)).hasRawTerm = false := by decide
theorem test_wf_params_refused : ({ paramsDefault with pressPoly := .tfine } : Params).wf = false := by decide

/-! ### Control operations -/

/-- V-C1 in small: CLR.CYC takes a raw cell and keeps a calibration cell. -/
theorem test_clrCyc_cells :
    (nextOf (exec .clrCyc stateT)).map (fun t => (Memory.read t.img 0x22, Memory.read t.img 0xE9))
      = some (none, some 0xA8#8) := by decide

/-- V-C5: STATUS 0x110025 before and after CLR.CYC. -/
theorem test_clrCyc_keeps_record :
    (nextOf (exec .clrCyc { State.reset with
      hcal := some hcalEx, tc := some 0#64, err := true, ecode := 2#3, einfo := 0x11#12 })).map statusWord
      = some 0x110025#64 := by decide

/-- V-C2 in small. -/
theorem test_clrAll_status :
    (nextOf (exec .clrAll { stateT with tcal := some tcalEx, err := true, ecode := 1#3 })).map
      (fun t => (statusWord t, Memory.read t.img 0xE9)) = some (0#64, none) := by decide

/-- V-C3. -/
theorem test_clrErr_status :
    (nextOf (exec .clrErr { State.reset with err := true, ecode := 2#3, einfo := 0x11#12 })).map statusWord
      = some 0#64 := by decide

/-! ### Calibration unpacking -/

/-- V-U1. -/
theorem test_unpkT_record : (nextOf (exec .unpkT stateT)).map (fun t => t.tcal) = some (some tcalEx) := by decide

/-- 91_not_in_source.md N3: with the byte order flipped par_t1 is 0xA861. -/
theorem test_unpkT_flipped :
    ((nextOf (exec .unpkT { stateT with params := { paramsDefault with cal16LsbFirst := false } })).bind
      fun t => t.tcal).map (fun c => c.par_t1) = some 0xA861#16 := by decide

/-- V-U2. -/
theorem test_unpkH_record : (nextOf (exec .unpkH stateH)).map (fun t => t.hcal) = some (some hcalEx) := by decide

/-- V-U8: the high nibble of the shared byte goes to par_h2. -/
theorem test_unpkH_nibbles :
    ((nextOf (exec .unpkH { State.reset with
      img := imageOf [(0xE1, 0), (0xE2, 0xF0), (0xE3, 0), (0xE4, 0), (0xE5, 0), (0xE6, 0), (0xE7, 0), (0xE8, 0)] })).bind
      fun t => t.hcal).map (fun c => (c.par_h1, c.par_h2)) = some (0#16, 15#16) := by decide

/-- V-U3. -/
theorem test_unpkP_record : (nextOf (exec .unpkP stateP)).map (fun t => t.pcal) = some (some pcalEx) := by decide

/-- V-U10: par_p7 comes from 0x98 and par_p6 from 0x99. -/
theorem test_unpkP_p6_p7 :
    ((nextOf (exec .unpkP { stateP with
      img := Memory.write (Memory.write imageP 0x98 0x80#8) 0x99 0x7F#8 })).bind
      fun t => t.pcal).map (fun c => (s8 c.par_p7, s8 c.par_p6)) = some (-128, 127) := by decide

/-! ### Raw sample assembly -/

/-- V-A1. -/
theorem test_asmT_sample : (nextOf (exec .asmT stateT)).map (fun t => t.rawT) = some (some 419000#32) := by decide

/-- V-A11: the third cell missing, STATUS 0x200005. -/
theorem test_asmT_missing :
    (nextOf (exec .asmT { State.reset with img := imageOf [(0x22, 0x66), (0x23, 0x4B)] })).map statusWord
      = some 0x200005#64 := by decide

/-- V-A6. -/
theorem test_asmH_sample : (nextOf (exec .asmH stateH)).map (fun t => t.rawH) = some (some 23342#16) := by decide

/-- V-A12. -/
theorem test_asmH_missing :
    (nextOf (exec .asmH { State.reset with img := imageOf [(0x25, 0x5B)] })).map statusWord
      = some 0x210005#64 := by decide

/-- V-A9. -/
theorem test_asmP_sample : (nextOf (exec .asmP stateP)).map (fun t => t.rawP) = some (some 324003#32) := by decide

/-- Rule R122: FF FF FF gives 0xFFFFF. -/
theorem test_asmP_all_ones :
    (nextOf (exec .asmP { State.reset with img := imageOf [(0x1F, 0xFF), (0x20, 0xFF), (0x21, 0xFF)] })).map
      (fun t => t.rawP) = some (some 0xFFFFF#32) := by decide

/-! ### Compensation -/

/-- V-T1. -/
theorem test_cmpTf_golden :
    (nextOf (exec .cmpTf stateC)).map (fun t => t.tfine) = some (some 0x40DDFE9902DB8000#64) := by decide +kernel

/-- V-T8, the largest magnitude reachable. -/
theorem test_cmpTf_extreme :
    (nextOf (exec .cmpTf { stateC with
      rawT := some 1048575#32, tcal := some { par_t1 := 0#16, par_t2 := 0x8000#16, par_t3 := 0x80#8 } })).map
      (fun t => t.tfine) = some (some 0xC140FFFEE0000100#64) := by decide +kernel

/-- V-T2. -/
theorem test_cmpTc_value :
    (nextOf (exec .cmpTc stateC)).map (fun t => t.tc) = some (some 0x4039629AA00DC000#64) := by decide +kernel

/-- V-T4: -0 stays -0. -/
theorem test_cmpTc_negative_zero :
    (nextOf (exec .cmpTc { stateC with tfine := some 0x8000000000000000#64 })).map (fun t => t.tc)
      = some (some 0x8000000000000000#64) := by decide +kernel

/-- V-H1. -/
theorem test_cmpH_value :
    (nextOf (exec .cmpH stateC)).map (fun t => t.hum) = some (some 0x404C22084D225F3E#64) := by decide +kernel

/-- V-H4: the square is formed first. -/
theorem test_cmpH_squares :
    (nextOf (exec .cmpH { stateC with
      rawH := some 55247#16
      hcal := some { par_h1 := 4042#16, par_h2 := 3807#16, par_h3 := 0x9A#8, par_h4 := 0x80#8, par_h5 := 0xD6#8,
                     par_h6 := 140#8, par_h7 := 48#8 }
      tc := some 0x402A80E51818FF18#64 })).map (fun t => t.hum)
      = some (some 0xBF746048AC0AC000#64) := by decide +kernel

/-- V-P1. -/
theorem test_cmpP_value :
    (nextOf (exec .cmpP stateC)).map (fun t => t.press) = some (some 0x40F990EC5BBF64EA#64) := by decide +kernel

/-- V-P3: the sentinel is compensated like any value. -/
theorem test_cmpP_sentinel :
    (nextOf (exec .cmpP { stateC with rawP := some 1048575#32 })).map (fun t => t.press)
      = some (some 0xC0D37DBF6A8B70B1#64) := by decide +kernel

/-! ### Host transactions, faults and the step -/

/-- V-I3: only bits 7:0 are stored. -/
theorem test_write_cell :
    (nextOf (step { State.reset with pending := [.write 0x022#12 0x1234#64] })).map
      (fun t => readPort 0x022#12 t) = some (some 0x34#64) := by decide

/-- V-I8: a write to an unmapped address. -/
theorem test_write_unmapped :
    (nextOf (step { State.reset with pending := [.write 0x200#12 0#64] })).map statusWord
      = some 0x2000007#64 := by decide

/-- V-I10: par_t3 = -50 reads sign-extended. -/
theorem test_read_signed :
    (nextOf (step { stateC with pending := [.read 0x112#12] })).map (fun t => t.answers)
      = some [{ ok := true, datum := 0xFFFFFFFFFFFFFFCE#64 }] := by decide

/-- V-I7: an unmapped address answers `ok = 0`, and no fault. -/
theorem test_read_unmapped :
    (nextOf (step { State.reset with pending := [.read 0x200#12] })).map
      (fun t => (t.answers.map (fun a => a.ok), statusWord t)) = some ([false], 0#64) := by decide

/-- V-F4: the upper bits are ignored and 0x10 starts UNPK.T. -/
theorem test_command_upper_bits :
    (nextOf (step { State.reset with pending := [.write 0x101#12 0xFFFFFFFFFFFFFF10#64] })).map statusWord
      = some 0x100005#64 := by decide

/-- V-F5: the second fault is not recorded. -/
theorem test_second_fault :
    (nextOf (step { State.reset with
      err := true, ecode := 1#3, einfo := 0x7F#12, pending := [.write 0x100#12 0#64] })).map statusWord
      = some 0x7F0003#64 := by decide

/-- The reset event (rule R170). -/
theorem test_reset_event :
    (nextOf (step { stateC with err := true, pending := [.reset] })).map statusWord = some 0#64 := by decide

/-- The word placed for the host runs first: CMP.P after reset, STATUS 0x330005 (V-F6). -/
theorem test_fetch_word :
    (nextOf (step (State.reset.withFetchWord 8 0x33))).map statusWord = some 0x330005#64 := by decide

/-! ### Arithmetic -/

/-- A tie goes to the even neighbour: 1 + 2^-53 is 1, and 1 + 3 * 2^-53 is 1 + 2^-51 (rule R75). -/
theorem test_ties_to_even :
    roundToBinary64 false (2 ^ 1074 + 2 ^ 1021) 1 = .fin false (2 ^ 1074)
      ∧ roundToBinary64 false (2 ^ 1074 + 3 * 2 ^ 1021) 1 = .fin false (2 ^ 1074 + 2 ^ 1023) := by decide +kernel

/-- Overflow and gradual underflow (rule R75): the largest number doubled, the least number halved. -/
theorem test_overflow_underflow :
    (fadd (Fp.ofBits 0x7FEFFFFFFFFFFFFF#64) (Fp.ofBits 0x7FEFFFFFFFFFFFFF#64)) = .inf false
      ∧ fdiv (Fp.ofBits 1#64) (f64 2) = .fin false 0 ∧ fdiv (Fp.ofBits 3#64) (f64 2) = .fin false 2 := by
  decide +kernel

/-! ### Witnesses: for every statement with hypotheses a state and operands that meet them -/

/-- Every operation has its inputs in `ready`. -/
theorem ready_inputs (i : Instr) : InputsValid i (ready i) := by
  cases i
  case unpkH =>
    intro a h1 h2
    have : a = 0xE1 ∨ a = 0xE2 ∨ a = 0xE3 ∨ a = 0xE4 ∨ a = 0xE5 ∨ a = 0xE6 ∨ a = 0xE7 ∨ a = 0xE8 := by omega
    rcases this with rfl | rfl | rfl | rfl | rfl | rfl | rfl | rfl <;> rfl
  all_goals first | trivial | exact ⟨rfl, rfl⟩ | exact ⟨rfl, rfl, rfl⟩ | (simp only [InputsValid]; decide)

/-- Every operation that needs inputs lacks them after reset. -/
theorem reset_inputs (i : Instr) (h : needsInputs i = true) : ¬ InputsValid i State.reset := by
  cases i
  case unpkH => intro w; exact absurd (w 0xE1 (by omega) (by omega)) (by decide)
  all_goals first | exact absurd h (by decide) | (simp only [InputsValid]; decide)

theorem witness_IllegalOpcodeRaisesIllegalOperation :
    ∀ n ∈ [0x00, 0x04, 0x0F, 0x13, 0x1F, 0x23, 0x2F, 0x34, 0xFF],
      ((BitVec.ofNat 64 n).setWidth 8).toNat = 0x00
        ∨ (0x04 ≤ ((BitVec.ofNat 64 n).setWidth 8).toNat ∧ ((BitVec.ofNat 64 n).setWidth 8).toNat ≤ 0x0F)
        ∨ (0x13 ≤ ((BitVec.ofNat 64 n).setWidth 8).toNat ∧ ((BitVec.ofNat 64 n).setWidth 8).toNat ≤ 0x1F)
        ∨ (0x23 ≤ ((BitVec.ofNat 64 n).setWidth 8).toNat ∧ ((BitVec.ofNat 64 n).setWidth 8).toNat ≤ 0x2F)
        ∨ 0x34 ≤ ((BitVec.ofNat 64 n).setWidth 8).toNat := by decide

theorem witness_StepRunsTheDecodedOperation :
    (State.reset.withFetchWord 8 0x33).pending = [.write 0x101#12 0x33#64]
      ∧ decode ((0x33#64 : Datum).setWidth 8) = some .cmpP ∧ State.reset.pending = [] := by decide

theorem witness_PlacedWordRunsNext : decodeTableWord 8 0x33 = some .cmpP ∧ decodeTableWord 8 0x01 = some .clrCyc := by
  decide

theorem witness_HostWriteByTarget :
    (∀ n ∈ [0x000, 0x0FF], (BitVec.ofNat 12 n).toNat ≤ 0x0FF) ∧ decode ((0x33#64 : Datum).setWidth 8) = some .cmpP
      ∧ decode ((0x34#64 : Datum).setWidth 8) = none
      ∧ ∀ n ∈ [0x100, 0x102, 0x14F, 0x152, 0xFFF],
        0x0FF < (BitVec.ofNat 12 n).toNat ∧ BitVec.ofNat 12 n ≠ 0x101#12 ∧ BitVec.ofNat 12 n ≠ 0x150#12
          ∧ BitVec.ofNat 12 n ≠ 0x151#12 := by decide

theorem witness_WriteToReadOnlyOrUnmappedIsRefused :
    ∀ n ∈ [0x100, 0x110, 0x112, 0x120, 0x126, 0x130, 0x139, 0x140, 0x142, 0x152, 0x153, 0x102, 0x10F, 0x113, 0x11F,
        0x127, 0x12F, 0x13A, 0x13F, 0x143, 0x14F, 0x154, 0xFFF],
      (BitVec.ofNat 12 n).toNat = n
        ∧ (n = 0x100
        ∨ (0x110 ≤ n ∧ n ≤ 0x112) ∨ (0x120 ≤ n ∧ n ≤ 0x126)
        ∨ (0x130 ≤ n ∧ n ≤ 0x139) ∨ (0x140 ≤ n ∧ n ≤ 0x142)
        ∨ n = 0x152 ∨ n = 0x153
        ∨ (0x102 ≤ n ∧ n ≤ 0x10F) ∨ (0x113 ≤ n ∧ n ≤ 0x11F)
        ∨ (0x127 ≤ n ∧ n ≤ 0x12F) ∨ (0x13A ≤ n ∧ n ≤ 0x13F)
        ∨ (0x143 ≤ n ∧ n ≤ 0x14F) ∨ 0x154 ≤ n) := by decide

theorem witness_HostReadByTarget :
    Memory.read stateP.img 0x1F = some 0x4F#8 ∧ Memory.read stateP.img 0xFF = none
      ∧ Memory.read stateP.img 0x00 = none
      ∧ dataRegAt 0x110#12 = some .t1 ∧ hostVal .t1 stateC = some 25000#64 ∧ hostVal .t1 State.reset = none
      ∧ dataRegAt 0x153#12 = some .press
      ∧ (∀ n ∈ [0x101, 0x102, 0x154, 0xFFF],
        0x0FF < (BitVec.ofNat 12 n).toNat ∧ BitVec.ofNat 12 n ≠ 0x100#12 ∧ dataRegAt (BitVec.ofNat 12 n) = none) := by
  decide

theorem witness_HostValueForms :
    stateC.tcal = some tcalEx ∧ stateC.hcal = some hcalEx ∧ stateC.pcal = some pcalEx
      ∧ stateC.rawT = some 419000#32 ∧ stateC.rawH = some 23342#16 ∧ stateC.rawP = some 324003#32
      ∧ stateC.tfine = some 0x40FFBB4148113000#64 ∧ stateC.tc = some 0x4039629AA00DC000#64
      ∧ ({ stateC with hum := some 0#64 } : State).hum = some 0#64
      ∧ ({ stateC with press := some 0#64 } : State).press = some 0#64 := by decide

theorem witness_FaultEntryRecordsTheFirstFault :
    State.reset.err = false ∧ ({ State.reset with err := true } : State).err = true := by decide

theorem witness_MissingInputRaisesInputNotValid :
    (∀ i, needsInputs i = true → ¬ InputsValid i State.reset) ∧ ∀ i, InputsValid i (ready i) :=
  ⟨reset_inputs, ready_inputs⟩

/-- The clauses on a missing input of the statements of single operations: after reset every input is missing. -/
theorem witness_missing_inputs :
    ¬ InputsValid .unpkT State.reset ∧ ¬ InputsValid .unpkH State.reset ∧ ¬ InputsValid .unpkP State.reset
      ∧ ¬ InputsValid .asmT State.reset ∧ ¬ InputsValid .asmH State.reset ∧ ¬ InputsValid .asmP State.reset
      ∧ ¬ InputsValid .cmpTf State.reset ∧ ¬ InputsValid .cmpTc State.reset ∧ ¬ InputsValid .cmpH State.reset
      ∧ ¬ InputsValid .cmpP State.reset
      ∧ State.reset.params.pcalMap = pcalMapDefault ∧ Memory.read State.reset.img 0x8E = none
      ∧ Memory.read State.reset.img 0xA0 = none :=
  ⟨reset_inputs _ rfl, reset_inputs _ rfl, reset_inputs _ rfl, reset_inputs _ rfl, reset_inputs _ rfl,
    reset_inputs _ rfl, reset_inputs _ rfl, reset_inputs _ rfl, reset_inputs _ rfl, reset_inputs _ rfl, rfl, rfl, rfl⟩

theorem witness_FaultRecordDoesNotStopTheBlock :
    exec .clrErr State.reset = .next State.reset
      ∧ perform (.write 0x101#12 0x03#64) State.reset = .next State.reset ∧ (0x110#12 : HostAddr) ≠ 0x100#12 :=
  ⟨rfl, rfl, by decide⟩

theorem witness_ClrAllReturnsToReset : Memory.wf imageP = true := by decide

theorem witness_UnpackTemperatureRecord :
    Memory.read stateT.img 0xE9 = some 0xA8#8 ∧ Memory.read stateT.img 0xEA = some 0x61#8
      ∧ Memory.read stateT.img 0x8A = some 0x84#8 ∧ Memory.read stateT.img 0x8B = some 0x67#8
      ∧ Memory.read stateT.img 0x8C = some 0xCE#8 := by decide

theorem witness_UnpackHumidityRecord :
    Memory.read stateH.img 0xE1 = some 0x3F#8 ∧ Memory.read stateH.img 0xE2 = some 0x5D#8
      ∧ Memory.read stateH.img 0xE3 = some 0x31#8 ∧ Memory.read stateH.img 0xE4 = some 0x00#8
      ∧ Memory.read stateH.img 0xE5 = some 0x2D#8 ∧ Memory.read stateH.img 0xE6 = some 0x14#8
      ∧ Memory.read stateH.img 0xE7 = some 0x78#8 ∧ Memory.read stateH.img 0xE8 = some 0x9C#8 := by decide

theorem witness_UnpackPressureRecordDefaultMap :
    stateP.params.pcalMap = pcalMapDefault ∧ stateP.params.cal16LsbFirst = true
      ∧ [0x8E, 0x8F, 0x90, 0x91, 0x92, 0x94, 0x95, 0x96, 0x97, 0x98, 0x99, 0x9C, 0x9D, 0x9E, 0x9F, 0xA0].map
          (Memory.read stateP.img)
        = [some 0xA6#8, some 0x8D#8, some 0x7D#8, some 0xD7#8, some 0x58#8, some 0x8E#8, some 0x1C#8, some 0x7E#8,
           some 0xFF#8, some 0x1F#8, some 0x1E#8, some 0x9F#8, some 0xFE#8, some 0xF4#8, some 0xF0#8, some 0x1E#8] := by
  decide

theorem witness_UnpackPressureRecordAnyMap :
    ∀ a ∈ stateP.params.pcalMap.cells,
      Memory.read stateP.img a.toNat = some ((Memory.read stateP.img a.toNat).getD 0#8) := by decide

theorem witness_UnpackFrame :
    ∀ i ∈ [Instr.unpkT, .unpkH, .unpkP],
      (nextOf (exec i (ready i))).isSome = true ∧ (nextOf (exec i State.reset)).isSome = true := by decide

theorem witness_AssembleTemperatureSample :
    Memory.read stateT.img 0x22 = some 0x66#8 ∧ Memory.read stateT.img 0x23 = some 0x4B#8
      ∧ Memory.read stateT.img 0x24 = some 0x80#8 := by decide

theorem witness_AssembleHumiditySample :
    Memory.read stateH.img 0x25 = some 0x5B#8 ∧ Memory.read stateH.img 0x26 = some 0x2E#8 := by decide

theorem witness_AssemblePressureSample :
    Memory.read stateP.img 0x1F = some 0x4F#8 ∧ Memory.read stateP.img 0x20 = some 0x1A#8
      ∧ Memory.read stateP.img 0x21 = some 0x30#8 := by decide

theorem witness_AssembleFrame :
    ∀ i ∈ [Instr.asmT, .asmH, .asmP],
      (nextOf (exec i (ready i))).isSome = true ∧ (nextOf (exec i State.reset)).isSome = true := by decide

/-- The hypotheses of the result statements of CMP.TF, CMP.TC, CMP.H and CMP.P. -/
theorem witness_CompensationResults :
    stateC.rawT = some 419000#32 ∧ stateC.tcal = some tcalEx ∧ stateC.tfine = some 0x40FFBB4148113000#64
      ∧ stateC.rawH = some 23342#16 ∧ stateC.hcal = some hcalEx ∧ stateC.tc = some 0x4039629AA00DC000#64
      ∧ stateC.rawP = some 324003#32 ∧ stateC.pcal = some pcalEx := by decide

theorem witness_CompensateFrame :
    ∀ i ∈ [Instr.cmpTf, .cmpTc, .cmpH, .cmpP],
      (nextOf (exec i (ready i))).isSome = true ∧ (nextOf (exec i State.reset)).isSome = true := by decide

/-- A nonzero and a zero numerator below 2^20, at the two ends of the range of RAW_T. -/
theorem witness_FineTemperatureIsExactRoundedOnce :
    (1048575#32).toNat < 1048576 ∧ fineNumerator 1048575#32 tcalEx ≠ 0 ∧ (0#32).toNat < 1048576
      ∧ fineNumerator 0#32 { par_t1 := 0#16, par_t2 := 0xFFFF#16, par_t3 := 0xFF#8 } = 0 := by decide

theorem witness_FineTemperatureIsBounded : (1048575#32).toNat < 1048576 := by decide

/-- The least par_t2 of either sign, and the last step of RAW_T. -/
theorem witness_FineTemperatureStrictlyMonotone :
    (1048574#32).toNat + 1 < 1048576 ∧ 4097 ≤ s16 4097#16 ∧ s16 0xEFFF#16 ≤ -4097 := by decide

theorem witness_CompensationDependsOnItsInputsOnly :
    InputsValid .cmpTf stateC ∧ InputsValid .cmpTc stateC ∧ InputsValid .cmpH stateC ∧ InputsValid .cmpP stateC :=
  ⟨ready_inputs .cmpTf, ready_inputs .cmpTc, ready_inputs .cmpH, ready_inputs .cmpP⟩

theorem witness_ZeroPressureCalibrationGivesNaN :
    stateC.params.pressPoly = pressPolyDefault ∧ stateC.rawP = some 324003#32
      ∧ ({ stateC with pcal := some zeroPcal } : State).pcal = some zeroPcal
      ∧ stateC.tfine = some 0x40FFBB4148113000#64 := by decide

theorem witness_ZeroHumidityCalibrationGivesZero :
    (f64 25).isFinite = true ∧ (fmul (f64 25) (f64 25)).isFinite = true := by decide +kernel

/-- Both clauses of the rounding: 1, and the first magnitude that rounds to infinity. -/
theorem witness_RoundingIsToNearestTiesToEven :
    0 < 1 ∧ 2 ^ 1074 < (2 ^ 2098 - 2 ^ 2044) * 1 ∧ (2 ^ 2098 - 2 ^ 2044) * 1 ≤ 2 ^ 2098 - 2 ^ 2044 := by
  decide +kernel

theorem witness_OperationsRoundTheExactResultOnce :
    signedMag false 1 + signedMag false 1 ≠ 0 ∧ signedMag false 1 + signedMag true 1 = 0 ∧ (1 : Nat) ≠ 0 := by decide

theorem witness_ExceptionalValues : (1 : Nat) ≠ 0 ∧ 0 < 1 ∧ 2 ^ 2098 * 1 ≤ 2 ^ 2098 := by decide +kernel

theorem witness_IntegerConversionIsExact : (-1048575 : Int).natAbs < 2 ^ 53 := by decide

theorem witness_PatternsRoundTrip :
    Fp.ofBits 0x40DDFE9902DB8000#64 ≠ .nan ∧ (f64 (-5)).representable = true := by decide +kernel

theorem witness_OperationsKeepToBinary64 :
    (Fp.inf true).representable = true ∧ (f64 3).representable = true := by decide +kernel

/-- The boundary bytes of the two reinterpretations. -/
theorem witness_SignedReinterpretation :
    (0x7FFF#16).toNat < 32768 ∧ 32768 ≤ (0x8000#16).toNat ∧ (0x7F#8).toNat < 128 ∧ 128 ≤ (0x80#8).toNat := by decide

theorem witness_ResetClearsEverything : (0x0FF#12 : HostAddr) ≠ 0x100#12 ∧ (0x101#12 : HostAddr) ≠ 0x100#12 := by
  decide

theorem witness_ClrAllEqualsReset : Memory.wf stateH.img = true := by decide

/-- A state with every container at its largest value and a recorded fault, on which UNPK.H steps. -/
def stateInv : State :=
  { stateH with
    hcal := some { hcalEx with par_h1 := 4095#16, par_h2 := 4095#16 }
    rawT := some 1048575#32, rawP := some 1048575#32
    err := true, ecode := 2#3, einfo := 0x011#12, pending := [.write 0x101#12 0x11#64] }

theorem witness_StepKeepsTheContainersCanonical :
    stateInv.Canonical ∧ (nextOf (step stateInv)).isSome = true := by
  refine ⟨⟨by decide, ?_, ?_, ?_⟩, by decide⟩
  · intro c h; cases h; decide
  · intro v h; cases h; decide
  · intro v h; cases h; decide

theorem witness_StepKeepsTheFaultRecordConsistent :
    stateInv.RecordConsistent ∧ (nextOf (step stateInv)).isSome = true :=
  ⟨.inr (.inr (.inl ⟨rfl, rfl, .unpkH, rfl, rfl⟩)), by decide⟩

theorem witness_EveryStepCompletes : stateInv.pending = [.write 0x101#12 0x11#64] := by decide

/-- A state with a humidity in HUM that is the one of its registers (V-H1), on which CMP.P steps. -/
def stateFresh : State :=
  { stateC with hum := some 0x404C22084D225F3E#64, pending := [.write 0x101#12 0x33#64] }

theorem witness_StepKeepsResultsFresh : stateFresh.Fresh ∧ (nextOf (step stateFresh)).isSome = true := by
  refine ⟨⟨?_, by simp [State.PressFresh, stateFresh, stateC, State.reset]⟩, by decide⟩
  intro v h
  have hv : v = 0x404C22084D225F3E#64 := (Option.some.inj h).symm
  subst hv
  exact ⟨23342#16, hcalEx, 0x4039629AA00DC000#64, rfl, rfl, rfl, by decide +kernel⟩

/-- A pending unpack that changes TCAL, and a pending transaction that steps. -/
theorem witness_CalibrationRecordsAreSnapshots :
    ({ stateT with pending := [.write 0x101#12 0x10#64] } : State).pending = [.write 0x101#12 0x10#64]
      ∧ (nextOf (step { stateT with pending := [.write 0x101#12 0x10#64] })).map (fun t => t.tcal)
        = some (some tcalEx) := by decide

theorem witness_OperationsNeverWriteACell :
    (nextOf (exec .unpkT stateT)).isSome = true ∧ Instr.unpkT ≠ .clrCyc ∧ Instr.unpkT ≠ .clrAll := by decide

theorem witness_WritesInvalidateWhatDependsOnThem :
    (∀ i, InputsValid i (ready i)) ∧ (∀ i, (nextOf (exec i (ready i))).isSome = true)
      ∧ (nextOf (perform (.write 0x150#12 0#64) stateC)).isSome = true
      ∧ (nextOf (perform (.write 0x151#12 0#64) stateC)).isSome = true
      ∧ (∀ n ∈ [0x000, 0x0FF], (BitVec.ofNat 12 n).toNat ≤ 0x0FF
        ∧ (nextOf (perform (.write (BitVec.ofNat 12 n) 0#64) stateC)).isSome = true) := by
  refine ⟨ready_inputs, ?_, by decide, by decide, by decide⟩
  intro i; cases i <;> decide

theorem witness_HumAndPressAreNeverInputs : (nextOf (exec .cmpH stateC)).isSome = true := by decide

end Sys2Proof.Tests
end

section
/-!
PROOFS. The statements of 10_state.md about registers: what each operation writes when its inputs are valid, what a
write to a register invalidates (rule R23), and what can change a calibration record (rule R17).
-/

namespace Sys2Proof.Machine

/-! ### Valid inputs are exactly what the readers of the image need (rule R155) -/

/-- A pair is read exactly when both its cells are valid (rules R43, R155). -/
theorem isSome_readPair (p : Params) (m : Memory) (lsb msb : Nat) :
    (readPair p m lsb msb).isSome = ((Memory.read m lsb).isSome && (Memory.read m msb).isSome) := by
  unfold readPair
  cases Memory.read m lsb <;> cases Memory.read m msb <;> rfl

/-- Whether a later cell of a record is valid does not depend on the byte of an earlier one: with
`Option.isSome_bind` this turns a chain of reads into the conjunction of their valid bits. -/
theorem option_any_const {α : Type} (x : Option α) (b : Bool) : x.any (fun _ => b) = (x.isSome && b) := by
  cases x <;> rfl

theorem inputsValid_unpkT_iff (s : State) :
    InputsValid .unpkT s ↔ ∃ r, readTcal s.params s.img = some r := by
  simp [InputsValid, readTcal, ← Option.isSome_iff_exists, Option.isSome_bind, option_any_const, isSome_readPair,
    and_assoc]

theorem inputsValid_unpkH_iff (s : State) :
    InputsValid .unpkH s ↔ ∃ r, readHcal s.img = some r := by
  simp only [InputsValid, readHcal, Option.isSome_iff_exists, Option.bind_eq_bind, Option.bind_eq_some_iff]
  constructor
  · intro hv
    simp [hv 0xE1, hv 0xE2, hv 0xE3, hv 0xE4, hv 0xE5, hv 0xE6, hv 0xE7, hv 0xE8]
  · rintro ⟨r, m2, h2, n, hn, m1, h1, b3, h3, b4, h4, b5, h5, b6, h6, b7, h7, -⟩ a hlo hhi
    interval_cases a <;> exact ⟨_, by assumption⟩

theorem inputsValid_unpkP_iff (s : State) :
    InputsValid .unpkP s ↔ ∃ r, readPcal s.params s.img = some r := by
  simp [InputsValid, PcalMap.cells, readPcal, readCellPair, ← Option.isSome_iff_exists, Option.isSome_bind,
    option_any_const, isSome_readPair, and_assoc]

theorem inputsValid_asmT_iff (s : State) :
    InputsValid .asmT s ↔ ∃ v, readRaw20 s.img 0x22 0x23 0x24 = some v := by
  simp [InputsValid, Option.isSome_iff_exists, readRaw20_eq_some]

theorem inputsValid_asmH_iff (s : State) :
    InputsValid .asmH s ↔ ∃ v, readRaw16 s.img 0x25 0x26 = some v := by
  simp [InputsValid, Option.isSome_iff_exists, readRaw16_eq_some]

theorem inputsValid_asmP_iff (s : State) :
    InputsValid .asmP s ↔ ∃ v, readRaw20 s.img 0x1F 0x20 0x21 = some v := by
  simp [InputsValid, Option.isSome_iff_exists, readRaw20_eq_some]

/-! ### An operation whose inputs are valid writes its register (rules R110 to R136) -/

variable {s t : State}

theorem exec_unpkT_of_inputsValid (hv : InputsValid .unpkT s) (h : exec .unpkT s = .next t) :
    ∃ r, readTcal s.params s.img = some r ∧ t = writeTcal r s := by
  obtain ⟨r, hr⟩ := (inputsValid_unpkT_iff s).mp hv
  simp only [exec, execUnpkT, hr, Host.Outcome.next.injEq] at h
  exact ⟨r, hr, h.symm⟩

theorem exec_unpkH_of_inputsValid (hv : InputsValid .unpkH s) (h : exec .unpkH s = .next t) :
    ∃ r, readHcal s.img = some r ∧ t = writeHcal r s := by
  obtain ⟨r, hr⟩ := (inputsValid_unpkH_iff s).mp hv
  simp only [exec, execUnpkH, hr, Host.Outcome.next.injEq] at h
  exact ⟨r, hr, h.symm⟩

theorem exec_unpkP_of_inputsValid (hv : InputsValid .unpkP s) (h : exec .unpkP s = .next t) :
    ∃ r, readPcal s.params s.img = some r ∧ t = writePcal r s := by
  obtain ⟨r, hr⟩ := (inputsValid_unpkP_iff s).mp hv
  simp only [exec, execUnpkP, hr, Host.Outcome.next.injEq] at h
  exact ⟨r, hr, h.symm⟩

theorem exec_asmT_of_inputsValid (hv : InputsValid .asmT s) (h : exec .asmT s = .next t) :
    ∃ v, readRaw20 s.img 0x22 0x23 0x24 = some v ∧ t = writeRawT v s := by
  obtain ⟨v, hr⟩ := (inputsValid_asmT_iff s).mp hv
  simp only [exec, execAsmT, hr, Host.Outcome.next.injEq] at h
  exact ⟨v, hr, h.symm⟩

theorem exec_asmH_of_inputsValid (hv : InputsValid .asmH s) (h : exec .asmH s = .next t) :
    ∃ v, readRaw16 s.img 0x25 0x26 = some v ∧ t = writeRawH v s := by
  obtain ⟨v, hr⟩ := (inputsValid_asmH_iff s).mp hv
  simp only [exec, execAsmH, hr, Host.Outcome.next.injEq] at h
  exact ⟨v, hr, h.symm⟩

theorem exec_asmP_of_inputsValid (hv : InputsValid .asmP s) (h : exec .asmP s = .next t) :
    ∃ v, readRaw20 s.img 0x1F 0x20 0x21 = some v ∧ t = writeRawP v s := by
  obtain ⟨v, hr⟩ := (inputsValid_asmP_iff s).mp hv
  simp only [exec, execAsmP, hr, Host.Outcome.next.injEq] at h
  exact ⟨v, hr, h.symm⟩

theorem exec_cmpTf_of_inputsValid (hv : InputsValid .cmpTf s) (h : exec .cmpTf s = .next t) :
    ∃ r c, s.rawT = some r ∧ s.tcal = some c ∧ t = deliverTfine (fineTemperature r c) s := by
  simp only [InputsValid, Option.isSome_iff_exists] at hv
  obtain ⟨⟨r, hr⟩, c, hc⟩ := hv
  simp only [exec, execCmpTf, hr, hc, Host.Outcome.next.injEq] at h
  exact ⟨r, c, hr, hc, h.symm⟩

theorem exec_cmpTc_of_inputsValid (hv : InputsValid .cmpTc s) (h : exec .cmpTc s = .next t) :
    ∃ x, s.tfine = some x ∧ t = deliverTc (temperatureCelsius (Fp.ofBits x)) s := by
  simp only [InputsValid, Option.isSome_iff_exists] at hv
  obtain ⟨x, hx⟩ := hv
  simp only [exec, execCmpTc, hx, Host.Outcome.next.injEq] at h
  exact ⟨x, hx, h.symm⟩

theorem exec_cmpH_of_inputsValid (hv : InputsValid .cmpH s) (h : exec .cmpH s = .next t) :
    ∃ r c x, s.rawH = some r ∧ s.hcal = some c ∧ s.tc = some x
      ∧ t = deliverHum (humidityPercent r c (Fp.ofBits x)) s := by
  simp only [InputsValid, Option.isSome_iff_exists] at hv
  obtain ⟨⟨r, hr⟩, ⟨c, hc⟩, x, hx⟩ := hv
  simp only [exec, execCmpH, hr, hc, hx, Host.Outcome.next.injEq] at h
  exact ⟨r, c, x, hr, hc, hx, h.symm⟩

theorem exec_cmpP_of_inputsValid (hv : InputsValid .cmpP s) (h : exec .cmpP s = .next t) :
    ∃ r c x, s.rawP = some r ∧ s.pcal = some c ∧ s.tfine = some x
      ∧ t = deliverPress (pressurePascal s.params r c (Fp.ofBits x)) s := by
  simp only [InputsValid, Option.isSome_iff_exists] at hv
  obtain ⟨⟨r, hr⟩, ⟨c, hc⟩, x, hx⟩ := hv
  simp only [exec, execCmpP, hr, hc, hx, Host.Outcome.next.injEq] at h
  exact ⟨r, c, x, hr, hc, hx, h.symm⟩

/-! ### The host's writes (rule R91) -/

theorem perform_write_tfine (d : Datum) (s : State) :
    perform (.write 0x150#12 d) s = .next (writeTfine d s) := rfl

theorem perform_write_tc (d : Datum) (s : State) :
    perform (.write 0x151#12 d) s = .next (writeTc d s) := rfl

theorem perform_write_cell {h : HostAddr} (hh : h.toNat ≤ 0x0FF) (d : Datum) (s : State) :
    perform (.write h d) s = .next (storeCell h.toNat (d.setWidth 8) s) :=
  if_pos hh

/-! ### What an operation and a host event can do to the calibration records (rule R17) -/

/-- A word that decodes is the opcode of the operation it selects: all eight bits are compared (rule R63). -/
theorem decode_eq_some {op : Opcode} {i : Instr} (h : decode op = some i) : op = encode i := by
  apply BitVec.eq_of_toNat_eq
  unfold decode at h
  generalize op.toNat = n at h ⊢
  split at h <;> cases h <;> rfl

theorem sameCalibration_deliverTfine (x : Fp) (s : State) : SameCalibration s (deliverTfine x s) := by
  simp [SameCalibration, deliverTfine]

theorem sameCalibration_deliverTc (x : Fp) (s : State) : SameCalibration s (deliverTc x s) := by
  simp [SameCalibration, deliverTc]

theorem sameCalibration_deliverHum (x : Fp) (s : State) : SameCalibration s (deliverHum x s) := by
  simp [SameCalibration, deliverHum]

theorem sameCalibration_deliverPress (x : Fp) (s : State) : SameCalibration s (deliverPress x s) := by
  simp [SameCalibration, deliverPress]

/-- The unpack of one record leaves the two others alone, CLR.ALL takes all three, and every other operation keeps
all three. -/
theorem exec_calibration_cases {i : Instr} (h : exec i s = .next t) :
    SameCalibration s t ∨ i = .clrAll
      ∨ (i = .unpkT ∧ t.hcal = s.hcal ∧ t.pcal = s.pcal)
      ∨ (i = .unpkH ∧ t.tcal = s.tcal ∧ t.pcal = s.pcal)
      ∨ (i = .unpkP ∧ t.tcal = s.tcal ∧ t.hcal = s.hcal) := by
  obtain ⟨-, rfl⟩ | ⟨-, hc⟩ | ⟨hi, -⟩ | ⟨-, rfl⟩ | ⟨hi, r, -, rfl⟩ | ⟨hi, r, -, rfl⟩ | ⟨hi, r, -, rfl⟩
    | ⟨-, v, -, rfl⟩ | ⟨-, v, -, rfl⟩ | ⟨-, v, -, rfl⟩ | ⟨-, r, c, -, -, rfl⟩ | ⟨-, x, -, rfl⟩
    | ⟨-, r, c, x, -, -, -, rfl⟩ | ⟨-, r, c, x, -, -, -, rfl⟩ := exec_cases i s t h
  · simp [SameCalibration, raiseInputNotValid]
  · cases hc; exact .inl ⟨rfl, rfl, rfl⟩
  · exact .inr (.inl hi)
  · simp [SameCalibration]
  · exact .inr (.inr (.inl ⟨hi, rfl, rfl⟩))
  · exact .inr (.inr (.inr (.inl ⟨hi, rfl, rfl⟩)))
  · exact .inr (.inr (.inr (.inr ⟨hi, rfl, rfl⟩)))
  · simp [SameCalibration]
  · simp [SameCalibration]
  · simp [SameCalibration]
  · exact .inl (sameCalibration_deliverTfine _ s)
  · exact .inl (sameCalibration_deliverTc _ s)
  · exact .inl (sameCalibration_deliverHum _ s)
  · exact .inl (sameCalibration_deliverPress _ s)

theorem sameCalibration_hostRead (a : HostAddr) (s : State) : SameCalibration s (hostRead a s) := by
  unfold hostRead
  split <;> exact ⟨rfl, rfl, rfl⟩

/-- An event that is neither the reset nor the start of an operation keeps the calibration records. -/
theorem perform_calibration_cases {e : HostEvent} (h : perform e s = .next t) :
    SameCalibration s t ∨ e = .reset
      ∨ ∃ d i, e = .write cmdAddr d ∧ opcodeOfDatum d = encode i ∧ exec i s = .next t := by
  obtain ⟨a, d, -, -, rfl⟩ | ⟨d, i, he, hd, hx⟩ | ⟨d, -, -, rfl⟩ | ⟨d, -, rfl⟩ | ⟨d, -, rfl⟩ | ⟨a, d, -, -, rfl⟩
    | ⟨a, -, rfl⟩ | ⟨he, -⟩ := perform_cases e s t h
  · simp [SameCalibration]
  · exact .inr (.inr ⟨d, i, he, decode_eq_some hd, hx⟩)
  · simp [SameCalibration]
  · simp [SameCalibration]
  · simp [SameCalibration]
  · simp [SameCalibration]
  · exact .inl (sameCalibration_hostRead a s)
  · exact .inr (.inl he)

end Sys2Proof.Machine

namespace Sys2Proof.Proofs

open Sys2Proof.Machine

/-- Settles O57: by what a host event and then an operation can do to the calibration records. -/
theorem calibrationRecordsAreSnapshots : Obligations.CalibrationRecordsAreSnapshots := by
  intro s t e rest hp h
  simp only [step, hp] at h
  obtain ⟨hT, hH, hP⟩ | rfl | ⟨d, i, rfl, hd, hx⟩ := perform_calibration_cases h
  · exact ⟨fun n => absurd hT n, fun n => absurd hH n, fun n => absurd hP n⟩
  · exact ⟨fun _ => .inl rfl, fun _ => .inl rfl, fun _ => .inl rfl⟩
  · obtain ⟨hT, hH, hP⟩ | rfl | ⟨rfl, hH, hP⟩ | ⟨rfl, hT, hP⟩ | ⟨rfl, hT, hH⟩ := exec_calibration_cases hx
    · exact ⟨fun n => absurd hT n, fun n => absurd hH n, fun n => absurd hP n⟩
    · exact ⟨fun _ => .inr ⟨d, rfl, .inr hd⟩, fun _ => .inr ⟨d, rfl, .inr hd⟩, fun _ => .inr ⟨d, rfl, .inr hd⟩⟩
    · exact ⟨fun _ => .inr ⟨d, rfl, .inl hd⟩, fun n => absurd hH n, fun n => absurd hP n⟩
    · exact ⟨fun n => absurd hT n, fun _ => .inr ⟨d, rfl, .inl hd⟩, fun n => absurd hP n⟩
    · exact ⟨fun n => absurd hT n, fun n => absurd hH n, fun _ => .inr ⟨d, rfl, .inl hd⟩⟩

/-- Settles O59: with its inputs valid an operation is the one named write of its register, and each named write
clears what the table of rule R23 says. -/
theorem writesInvalidateWhatDependsOnThem : Obligations.WritesInvalidateWhatDependsOnThem := by
  intro s t
  refine ⟨fun hv h => ?unpkT, fun hv h => ?unpkH, fun hv h => ?unpkP, fun hv h => ?asmT, fun hv h => ?asmH,
    fun hv h => ?asmP, fun hv h => ?cmpTf, fun hv h => ?cmpTc, fun hv h => ?cmpH, fun hv h => ?cmpP,
    fun d h => ?hostTfine, fun d h => ?hostTc, fun a d ha h => ?hostCell⟩
  case unpkT => obtain ⟨r, -, rfl⟩ := exec_unpkT_of_inputsValid hv h; simp [SameRawSamples]
  case unpkH => obtain ⟨r, -, rfl⟩ := exec_unpkH_of_inputsValid hv h; simp [SameRawSamples]
  case unpkP => obtain ⟨r, -, rfl⟩ := exec_unpkP_of_inputsValid hv h; simp [SameRawSamples]
  case asmT => obtain ⟨v, -, rfl⟩ := exec_asmT_of_inputsValid hv h; simp [SameCalibration]
  case asmH => obtain ⟨v, -, rfl⟩ := exec_asmH_of_inputsValid hv h; simp [SameCalibration]
  case asmP => obtain ⟨v, -, rfl⟩ := exec_asmP_of_inputsValid hv h; simp [SameCalibration]
  case cmpTf =>
    obtain ⟨r, c, -, -, rfl⟩ := exec_cmpTf_of_inputsValid hv h
    simp [deliverTfine_eq, SameCalibration, SameRawSamples]
  case cmpTc =>
    obtain ⟨x, -, rfl⟩ := exec_cmpTc_of_inputsValid hv h
    simp [deliverTc_eq, SameCalibration, SameRawSamples]
  case cmpH =>
    obtain ⟨r, c, x, -, -, -, rfl⟩ := exec_cmpH_of_inputsValid hv h
    simp [deliverHum_eq, SameCalibration, SameRawSamples]
  case cmpP =>
    obtain ⟨r, c, x, -, -, -, rfl⟩ := exec_cmpP_of_inputsValid hv h
    simp [deliverPress_eq, SameCalibration, SameRawSamples]
  case hostTfine =>
    rw [perform_write_tfine] at h
    cases h
    simp [SameCalibration, SameRawSamples]
  case hostTc =>
    rw [perform_write_tc] at h
    cases h
    simp [SameCalibration, SameRawSamples]
  case hostCell =>
    rw [perform_write_cell ha] at h
    cases h
    simp [SameResults, SameCalibration, SameRawSamples]

end Sys2Proof.Proofs
end

section
/-!
PROOFS. The statements of 30_encoding.md: the decoder's exact match (rule R63), what a write to CMD does with a listed
and with an unlisted opcode (rules R27, R64), and that it looks at its low byte alone (rule R65).
-/

namespace Sys2Proof.Machine

/-! ### The decoder (rules R62 to R64) -/

@[simp] theorem decode_encode (i : Instr) : decode (encode i) = some i := by
  cases i <;> rfl

theorem decode_eq_some_iff (op : Opcode) (i : Instr) : decode op = some i ↔ op = encode i := by
  constructor
  · exact decode_eq_some
  · rintro rfl
    exact decode_encode i

/-- The illegal opcodes are the five ranges of rule R64. -/
theorem decode_eq_none_iff (op : Opcode) :
    decode op = none ↔
      op.toNat = 0x00 ∨ (0x04 ≤ op.toNat ∧ op.toNat ≤ 0x0F) ∨ (0x13 ≤ op.toNat ∧ op.toNat ≤ 0x1F)
        ∨ (0x23 ≤ op.toNat ∧ op.toNat ≤ 0x2F) ∨ 0x34 ≤ op.toNat := by
  unfold decode
  generalize op.toNat = n
  split
  case h_14 => -- no listed value: the thirteen inequalities leave the five ranges
    simp only [true_iff, imp_false] at *
    omega
  all_goals decide -- a listed value, in none of the ranges

/-! ### The write to CMD (rules R27, R65) -/

theorem raiseFault_eq_recorded (f : FaultKind) (info : BitVec 12) (s : State) :
    raiseFault f info s = recorded f.code info s := by
  obtain ⟨he, hr⟩ | ⟨he, hr⟩ := raiseFault_cases f info s <;> simp [hr, recorded, he]

theorem startOperation_of_decode_eq_some {op : Opcode} {i : Instr} (h : decode op = some i) (s : State) :
    startOperation op s = exec i s := by
  simp [startOperation, h]

theorem startOperation_of_decode_eq_none {op : Opcode} (h : decode op = none) (s : State) :
    startOperation op s = .next (recorded 1#3 (op.setWidth 12) s) := by
  simp [startOperation, h, raiseFault_eq_recorded, FaultKind.code]

theorem perform_write_cmd (d : Datum) (s : State) :
    perform (.write 0x101#12 d) s = startOperation (d.setWidth 8) s := rfl

end Sys2Proof.Machine

namespace Sys2Proof.Proofs

open Sys2Proof.Machine

/-- Settles O2: the five ranges are the words the decoder refuses, and a refused word only records the fault. -/
theorem illegalOpcodeRaisesIllegalOperation : Obligations.IllegalOpcodeRaisesIllegalOperation := by
  intro s d hd
  have hnone : decode (d.setWidth 8) = none := (decode_eq_none_iff _).mpr hd
  rw [perform_write_cmd, startOperation_of_decode_eq_none hnone]

/-- Settles O1: the opcode map is the encoder's table, and the decoder inverts the encoder exactly. -/
theorem decodingMatchesTheThirteenOpcodes : Obligations.DecodingMatchesTheThirteenOpcodes :=
  ⟨by decide, decode_eq_some_iff⟩

/-- Settles O3: the operation is started from the datum's low byte, which is all the widened low byte holds. -/
theorem commandIgnoresUpperBits : Obligations.CommandIgnoresUpperBits := by
  refine ⟨fun s d => ?lowByte, fun s => ?unpkT⟩
  case lowByte =>
    have hlow : ((d.setWidth 8).setWidth 64).setWidth 8 = d.setWidth 8 := by simp
    rw [perform_write_cmd, perform_write_cmd, hlow]
  case unpkT =>
    have hop : (0x1FF10#64 : Datum).setWidth 8 = encode .unpkT := by decide
    rw [perform_write_cmd, hop, startOperation_of_decode_eq_some (decode_encode .unpkT)]

end Sys2Proof.Proofs
end

section
/-!
PROOFS. The integer statements of 40_numerics.md section 1: the byte assembly (rule R71), the two's complement readings
(rule R72) and the nibble packings of the shared byte (rule R73). The assembly and the packings are concatenations of
bit strings; their values and the recovery of their parts follow from that form.
-/

namespace Sys2Proof.Machine

/-- The value of a concatenation in positional form: a sum, where the library's lemma has a bitwise or. -/
theorem toNat_append_eq_mul_add {v w : Nat} (x : BitVec v) (y : BitVec w) :
    (x ++ y).toNat = x.toNat * 2 ^ w + y.toNat := by
  rw [BitVec.toNat_append, ← Nat.shiftLeft_add_eq_or_of_lt y.isLt, Nat.shiftLeft_eq]

/-! ### Byte assembly (rule R71) -/

theorem assemble16_eq_append (msb lsb : Byte) : assemble16 msb lsb = msb ++ lsb := by
  have h := BitVec.setWidth_append_eq_shiftLeft_setWidth_or (w'' := 16) (b := msb) (b' := lsb)
  rwa [BitVec.setWidth_eq, eq_comm] at h

theorem toNat_assemble16 (msb lsb : Byte) : (assemble16 msb lsb).toNat = msb.toNat * 256 + lsb.toNat := by
  rw [assemble16_eq_append]
  exact toNat_append_eq_mul_add msb lsb

/-! ### Two's complement (rule R72) -/

theorem s16_of_lt {w : BitVec 16} (h : w.toNat < 32768) : s16 w = w.toNat :=
  if_pos h

theorem s16_of_le {w : BitVec 16} (h : 32768 ≤ w.toNat) : s16 w = (w.toNat : Int) - 65536 :=
  if_neg h.not_gt

theorem s16_eq_toInt (w : BitVec 16) : s16 w = w.toInt := by
  rcases Nat.lt_or_ge w.toNat 32768 with h | h
  · rw [s16_of_lt h, BitVec.toInt_eq_toNat_of_lt (by omega)]
  · rw [s16_of_le h, BitVec.toInt_eq_toNat_cond, if_neg (by omega)]
    rfl

theorem s8_of_lt {b : BitVec 8} (h : b.toNat < 128) : s8 b = b.toNat :=
  if_pos h

theorem s8_of_le {b : BitVec 8} (h : 128 ≤ b.toNat) : s8 b = (b.toNat : Int) - 256 :=
  if_neg h.not_gt

theorem s8_eq_toInt (b : BitVec 8) : s8 b = b.toInt := by
  rcases Nat.lt_or_ge b.toNat 128 with h | h
  · rw [s8_of_lt h, BitVec.toInt_eq_toNat_of_lt (by omega)]
  · rw [s8_of_le h, BitVec.toInt_eq_toNat_cond, if_neg (by omega)]
    rfl

/-! ### Nibble packing (rule R73) -/

theorem toNat_lowNibble (s : Byte) : (s.extractLsb' 0 4).toNat = s.toNat % 16 := by
  simp

theorem toNat_highNibble (s : Byte) : (s.extractLsb' 4 4).toNat = s.toNat / 16 := by
  have h : s.toNat / 16 < 16 := by omega
  simpa [Nat.shiftRight_eq_div_pow] using h

theorem packLowNibble_eq_append (m s : Byte) : packLowNibble m s = (m ++ s.extractLsb' 0 4).setWidth 16 := by
  have hand : (s &&& 0x0F#8).toNat = s.toNat % 16 := Nat.and_two_pow_sub_one_eq_mod s.toNat 4
  have hlow : (s &&& 0x0F#8).setWidth 16 = (s.extractLsb' 0 4).setWidth 16 :=
    BitVec.eq_of_toNat_eq (by simp only [BitVec.toNat_setWidth, hand, toNat_lowNibble])
  rw [packLowNibble, BitVec.setWidth_append_eq_shiftLeft_setWidth_or, hlow]

theorem packHighNibble_eq_append (m s : Byte) : packHighNibble m s = (m ++ s.extractLsb' 4 4).setWidth 16 := by
  have hshift : (s >>> 4).toNat = s.toNat / 16 := Nat.shiftRight_eq_div_pow s.toNat 4
  have hhigh : (s >>> 4).setWidth 16 = (s.extractLsb' 4 4).setWidth 16 :=
    BitVec.eq_of_toNat_eq (by simp only [BitVec.toNat_setWidth, hshift, toNat_highNibble])
  rw [packHighNibble, BitVec.setWidth_append_eq_shiftLeft_setWidth_or, hhigh]

theorem toNat_setWidth_append_nibble (m : Byte) (n : BitVec 4) :
    ((m ++ n).setWidth 16).toNat = m.toNat * 16 + n.toNat := by
  rw [BitVec.toNat_setWidth_of_le (by decide)]
  exact toNat_append_eq_mul_add m n

theorem lowNibble_setWidth_append_nibble (m : Byte) (n : BitVec 4) : ((m ++ n).setWidth 16).extractLsb' 0 4 = n := by
  rw [BitVec.extractLsb'_setWidth_of_le (by decide)]
  exact BitVec.extractLsb'_append_eq_right

theorem toNat_packLowNibble (m s : Byte) : (packLowNibble m s).toNat = m.toNat * 16 + s.toNat % 16 := by
  rw [packLowNibble_eq_append, toNat_setWidth_append_nibble, toNat_lowNibble]

theorem toNat_packHighNibble (m s : Byte) : (packHighNibble m s).toNat = m.toNat * 16 + s.toNat / 16 := by
  rw [packHighNibble_eq_append, toNat_setWidth_append_nibble, toNat_highNibble]

theorem lowNibble_packLowNibble (m s : Byte) : (packLowNibble m s).extractLsb' 0 4 = s.extractLsb' 0 4 := by
  rw [packLowNibble_eq_append, lowNibble_setWidth_append_nibble]

theorem lowNibble_packHighNibble (m s : Byte) : (packHighNibble m s).extractLsb' 0 4 = s.extractLsb' 4 4 := by
  rw [packHighNibble_eq_append, lowNibble_setWidth_append_nibble]

end Sys2Proof.Machine

namespace Sys2Proof.Proofs

open Sys2Proof.Machine

/-- Settles O46: the assembly is the concatenation of the two bytes, whose parts are the bytes. -/
theorem assembleSixteenBits : Obligations.AssembleSixteenBits := by
  refine ⟨fun msb lsb => ⟨toNat_assemble16 msb lsb, ?parts⟩, fun w => ?splitThenAssemble⟩
  case parts =>
    rw [assemble16_eq_append]
    exact ⟨BitVec.extractLsb'_append_eq_left, BitVec.extractLsb'_append_eq_right⟩
  case splitThenAssemble =>
    rw [assemble16_eq_append]
    exact BitVec.extractLsb'_append_extractLsb'

/-- Settles O47: each formula is a branch of the definition, and two's complement splits at the same bound. -/
theorem signedReinterpretation : Obligations.SignedReinterpretation :=
  ⟨fun w => ⟨s16_of_lt, s16_of_le, s16_eq_toInt w⟩, fun b => ⟨s8_of_lt, s8_of_le, s8_eq_toInt b⟩, by decide⟩

/-- Settles O48: a packing is a byte followed by one nibble of the shared byte, so its low nibble is that nibble. -/
theorem nibblePacking : Obligations.NibblePacking := by
  refine ⟨fun m s => ⟨toNat_packLowNibble m s, toNat_packHighNibble m s, ?lowBound, ?highBound⟩,
    fun lo hi m => ⟨?lowNibble, ?highNibble⟩⟩
  case lowBound => rw [toNat_packLowNibble]; omega
  case highBound => rw [toNat_packHighNibble]; omega
  case lowNibble =>
    rw [lowNibble_packLowNibble]
    exact BitVec.extractLsb'_append_eq_right
  case highNibble =>
    rw [lowNibble_packHighNibble]
    exact BitVec.extractLsb'_append_eq_left

end Sys2Proof.Proofs
end

section
/-!
PROOFS. The statements of 41_host_interface.md: what a write does at each target (rules R91, R92) and the form in which
a data register is read (rules R93, R94).
-/

namespace Sys2Proof.Machine

/-! ### Writes that are refused (rules R91, R92) -/

theorem unwritable_iff (h : HostAddr) :
    unwritable h = true ↔ 0x0FF < h.toNat ∧ h ≠ 0x101#12 ∧ h ≠ 0x150#12 ∧ h ≠ 0x151#12 := by
  simp [unwritable, and_assoc]

theorem perform_write_of_unwritable {h : HostAddr} (hu : unwritable h = true) (d : Datum) (s : State) :
    perform (.write h d) s = .next (recorded 3#3 h s) := by
  obtain ⟨himg, hcmd, htfine, htc⟩ := (unwritable_iff h).mp hu
  calc perform (.write h d) s
      _ = .next (raiseFault .badHostAccess h s) := by
        simp [perform, hostWrite, himg.not_ge, cmdAddr, hcmd, tfineAddr, htfine, tcAddr, htc]
      _ = .next (recorded 3#3 h s) := by rw [raiseFault_eq_recorded, FaultKind.code]

/-! ### Reads of the data registers (rules R93, R94) -/

/-- A data register stands above the image and is not STATUS, so a read of its address finds its value. -/
theorem readPort_eq_hostVal {h : HostAddr} {r : DataReg} (hr : dataRegAt h = some r) (s : State) :
    readPort h s = hostVal r s := by
  have hlow : ¬ h.toNat ≤ 0x10F := fun hle => by
    simp [(dataRegAt_eq_none_iff h).mpr (.inl hle)] at hr
  have himg : ¬ h.toNat ≤ 0x0FF := fun hle => hlow (by omega)
  have hstatus : h ≠ statusAddr := by
    rintro rfl
    exact hlow (by decide)
  simp [readPort, himg, hstatus, hr]

section
variable {α : Type} {w : Nat} {h : HostAddr} {r : DataReg} {s : State} {o : Option α} {c : α}

/-- An unsigned field `f` of the valid record or register `o` is read as its value. -/
theorem readsUnsigned_of_hostVal (f : α → BitVec w) (hr : dataRegAt h = some r)
    (hv : hostVal r s = o.map fun c => (f c).setWidth 64) (hc : o = some c) (hw : w ≤ 64 := by decide) :
    ReadsUnsigned h (f c).toNat s := by
  refine ⟨(f c).setWidth 64, ?_, BitVec.toNat_setWidth_of_le hw⟩
  rw [readPort_eq_hostVal hr, hv, hc, Option.map_some]

/-- A signed field `f` of the valid record `o` is read as its two's complement value. -/
theorem readsSigned_of_hostVal (f : α → BitVec w) (hr : dataRegAt h = some r)
    (hv : hostVal r s = o.map fun c => (f c).signExtend 64) (hc : o = some c) (hw : w ≤ 64 := by decide) :
    ReadsSigned h (f c).toInt s := by
  refine ⟨(f c).signExtend 64, ?_, BitVec.toInt_signExtend_of_le hw⟩
  rw [readPort_eq_hostVal hr, hv, hc, Option.map_some]

end

end Sys2Proof.Machine

namespace Sys2Proof.Proofs

open Sys2Proof.Machine

/-- Settles O6: the five targets are the branches of the host's write, each with its own lemma. -/
theorem hostWriteByTarget : Obligations.HostWriteByTarget := by
  intro s h d
  refine ⟨fun hcell => ?cell, ?cmd, ?tfine, ?tc, fun himg hcmd htfine htc => ?refused⟩
  case cell =>
    refine ⟨storeCell h.toNat (d.setWidth 8) s, perform_write_cell hcell d s, ?_, fun a ha => ?_, rfl⟩
    · exact read_write_same s.img h.toNat _
    · exact read_write_other s.img h.toNat a _ ha
  case cmd =>
    rintro rfl
    rw [perform_write_cmd]
    exact ⟨fun i hi => startOperation_of_decode_eq_some hi s, fun hn => startOperation_of_decode_eq_none hn s⟩
  case tfine =>
    rintro rfl
    exact perform_write_tfine d s
  case tc =>
    rintro rfl
    exact perform_write_tc d s
  case refused =>
    exact perform_write_of_unwritable ((unwritable_iff h).mpr ⟨himg, hcmd, htfine, htc⟩) d s

/-- Settles O7: every address of the list lies above the image and is none of CMD, TFINE and TC. -/
theorem writeToReadOnlyOrUnmappedIsRefused : Obligations.WriteToReadOnlyOrUnmappedIsRefused := by
  intro s h d hlist
  have hu : unwritable h = true := by
    simp only [unwritable_iff, ne_eq, ← BitVec.toNat_inj, BitVec.toNat_ofNat]
    omega
  exact perform_write_of_unwritable hu d s

/-- Settles O9: register by register, at its address and with its extension; `s8` and `s16` are two's complement. -/
theorem hostValueForms : Obligations.HostValueForms := by
  intro s
  simp only [s16_eq_toInt, s8_eq_toInt]
  refine ⟨fun c hc => ?tcal, fun c hc => ?hcal, fun c hc => ?pcal, fun v hv => ?rawT, fun v hv => ?rawH,
    fun v hv => ?rawP, fun v hv => ?tfine, fun v hv => ?tc, fun v hv => ?hum, fun v hv => ?press⟩
  case tcal =>
    exact ⟨readsUnsigned_of_hostVal TCal.par_t1 rfl rfl hc, readsSigned_of_hostVal TCal.par_t2 rfl rfl hc,
      readsSigned_of_hostVal TCal.par_t3 rfl rfl hc⟩
  case hcal =>
    exact ⟨readsUnsigned_of_hostVal HCal.par_h1 rfl rfl hc, readsUnsigned_of_hostVal HCal.par_h2 rfl rfl hc,
      readsSigned_of_hostVal HCal.par_h3 rfl rfl hc, readsSigned_of_hostVal HCal.par_h4 rfl rfl hc,
      readsSigned_of_hostVal HCal.par_h5 rfl rfl hc, readsUnsigned_of_hostVal HCal.par_h6 rfl rfl hc,
      readsSigned_of_hostVal HCal.par_h7 rfl rfl hc⟩
  case pcal =>
    exact ⟨readsUnsigned_of_hostVal PCal.par_p1 rfl rfl hc, readsSigned_of_hostVal PCal.par_p2 rfl rfl hc,
      readsSigned_of_hostVal PCal.par_p3 rfl rfl hc, readsSigned_of_hostVal PCal.par_p4 rfl rfl hc,
      readsSigned_of_hostVal PCal.par_p5 rfl rfl hc, readsSigned_of_hostVal PCal.par_p6 rfl rfl hc,
      readsSigned_of_hostVal PCal.par_p7 rfl rfl hc, readsSigned_of_hostVal PCal.par_p8 rfl rfl hc,
      readsSigned_of_hostVal PCal.par_p9 rfl rfl hc, readsUnsigned_of_hostVal PCal.par_p10 rfl rfl hc⟩
  case rawT => exact readsUnsigned_of_hostVal id rfl rfl hv
  case rawH => exact readsUnsigned_of_hostVal id rfl rfl hv
  case rawP => exact readsUnsigned_of_hostVal id rfl rfl hv
  case tfine => exact (readPort_eq_hostVal (r := .tfine) rfl s).trans hv
  case tc => exact (readPort_eq_hostVal (r := .tc) rfl s).trans hv
  case hum => exact (readPort_eq_hostVal (r := .hum) rfl s).trans hv
  case press => exact (readPort_eq_hostVal (r := .press) rfl s).trans hv

end Sys2Proof.Proofs
end

section
/-!
PROOFS. The statements of 42_control_ops.md: what CLR.CYC (rule R100), CLR.ALL (rule R101) and CLR.ERR (rule R102) take
away, and that they change nothing else.
-/

namespace Sys2Proof.Machine

/-! ### Clearing a range of cells (rules R100, R101) -/

theorem read_clearRange_of_mem {lo hi a : Nat} (hlo : lo ≤ a) (hhi : a ≤ hi) (m : Memory) :
    Memory.read (Memory.clearRange m lo hi) a = none := by
  rw [read_clearRange, if_pos ⟨hlo, hhi⟩]

theorem read_clearRange_of_not_mem {lo hi a : Nat} (ha : a < lo ∨ hi < a) (m : Memory) :
    Memory.read (Memory.clearRange m lo hi) a = Memory.read m a := by
  rw [read_clearRange, if_neg (by omega)]

/-- A rising image lists no cell above 0xFF, so clearing from its lower bound to 0xFF leaves no entry. -/
theorem clearRange_eq_nil_of_risesFrom {m : Memory} {lo k : Nat} (hk : lo ≤ k) (hm : Memory.risesFrom m k = true) :
    Memory.clearRange m lo 0xFF = [] := by
  induction m generalizing k with
  | nil => rfl
  | cons c rest ih =>
    obtain ⟨b, w⟩ := c
    simp only [Memory.risesFrom, Bool.and_eq_true, decide_eq_true_eq] at hm
    obtain ⟨⟨hkb, hb⟩, hrest⟩ := hm
    rw [Memory.clearRange, if_pos (by omega)]
    exact ih (by omega) hrest

theorem clearRange_all_eq_nil_of_wf {m : Memory} (hm : Memory.wf m = true) :
    Memory.clearRange m 0x00 0xFF = [] :=
  clearRange_eq_nil_of_risesFrom le_rfl hm

/-! ### The control operations (rules R100 to R102) -/

theorem exec_clrCyc (s : State) :
    exec .clrCyc s = .next { s with
      img := Memory.clearRange s.img 0x1F 0x26, rawT := none, rawH := none, rawP := none
      tfine := none, tc := none, hum := none, press := none } := rfl

/-- CLR.ALL is the reset but for the image, which it clears cell by cell. -/
theorem exec_clrAll (s : State) :
    exec .clrAll s = .next { resetBlock s with img := Memory.clearRange s.img 0x00 0xFF } := rfl

theorem exec_clrErr (s : State) : exec .clrErr s = .next (clearFault s) := rfl

/-- On a canonical image CLR.ALL is the reset. -/
theorem exec_clrAll_of_wf {s : State} (hs : Memory.wf s.img = true) : exec .clrAll s = .next (resetBlock s) := by
  rw [exec_clrAll, clearRange_all_eq_nil_of_wf hs, ← resetBlock_img s]

end Sys2Proof.Machine

namespace Sys2Proof.Proofs

open Sys2Proof.Machine

/-- Settles O14: the image is the old one with 0x1F..0x26 cleared, and a clearing is read cell by cell. -/
theorem clrCycEndsTheCycle : Obligations.ClrCycEndsTheCycle := by
  intro s
  refine ⟨_, exec_clrCyc s, fun a hlo hhi => ?cleared, fun a ha => ?kept, rfl⟩
  case cleared => exact read_clearRange_of_mem hlo hhi s.img
  case kept => exact read_clearRange_of_not_mem ha s.img

/-- Settles O15: CLR.ALL resets all but the image, and clearing a canonical image empties it. -/
theorem clrAllReturnsToReset : Obligations.ClrAllReturnsToReset := by
  intro s
  refine ⟨⟨_, exec_clrAll s, fun a ha => ?cleared, rfl⟩, fun hs => ?canonical⟩
  case cleared => exact read_clearRange_of_mem (Nat.zero_le a) ha s.img
  case canonical => exact exec_clrAll_of_wf hs

/-- Settles O16: clearing the fault record is all CLR.ERR does, and that update names ERR, ECODE and EINFO alone. -/
theorem clrErrClearsTheRecordOnly : Obligations.ClrErrClearsTheRecordOnly := by
  intro s
  rw [exec_clrErr, clearFault]

end Sys2Proof.Proofs
end

section
/-!
PROOFS. The statements of 43_calibration_unpack.md: the records UNPK.T (rule R111) and UNPK.H (rule R112) build from
their cells, and the InputNotValid that a missing cell raises.
-/

namespace Sys2Proof.Machine

/-! ### Operations with a missing input (rules R153, R155) -/

variable {s : State}

/-- Every operation answers a next state. -/
theorem exists_exec_eq_next (i : Instr) (s : State) : ∃ t, exec i s = .next t := by
  cases i <;> simp only [exec]
  case clrCyc | clrAll | clrErr => exact ⟨_, rfl⟩
  case unpkT => unfold execUnpkT; split <;> exact ⟨_, rfl⟩
  case unpkH => unfold execUnpkH; split <;> exact ⟨_, rfl⟩
  case unpkP => unfold execUnpkP; split <;> exact ⟨_, rfl⟩
  case asmT => unfold execAsmT; split <;> exact ⟨_, rfl⟩
  case asmH => unfold execAsmH; split <;> exact ⟨_, rfl⟩
  case asmP => unfold execAsmP; split <;> exact ⟨_, rfl⟩
  case cmpTf => unfold execCmpTf; split <;> exact ⟨_, rfl⟩
  case cmpTc => unfold execCmpTc; split <;> exact ⟨_, rfl⟩
  case cmpH => unfold execCmpH; split <;> exact ⟨_, rfl⟩
  case cmpP => unfold execCmpP; split <;> exact ⟨_, rfl⟩

theorem raiseInputNotValid_eq_recorded (i : Instr) (s : State) :
    raiseInputNotValid i s = recorded 2#3 ((encode i).setWidth 12) s :=
  raiseFault_eq_recorded .inputNotValid _ s

/-- An operation without all its inputs can only record InputNotValid: every other case of `exec_cases` has them. -/
theorem exec_of_not_inputsValid {i : Instr} (h : ¬ InputsValid i s) :
    exec i s = .next (recorded 2#3 ((encode i).setWidth 12) s) := by
  obtain ⟨t, ht⟩ := exists_exec_eq_next i s
  rw [ht, ← raiseInputNotValid_eq_recorded]
  obtain ⟨-, rfl⟩ | hdone := exec_cases i s t ht
  · rfl
  · refine absurd ?_ h
    obtain ⟨rfl, -⟩ | ⟨rfl, -⟩ | ⟨rfl, -⟩ | ⟨rfl, r, hr, -⟩ | ⟨rfl, r, hr, -⟩ | ⟨rfl, r, hr, -⟩ | ⟨rfl, v, hv, -⟩
      | ⟨rfl, v, hv, -⟩ | ⟨rfl, v, hv, -⟩ | ⟨rfl, r, c, hr, hc, -⟩ | ⟨rfl, x, hx, -⟩ | ⟨rfl, r, c, x, hr, hc, hx, -⟩
      | ⟨rfl, r, c, x, hr, hc, hx, -⟩ := hdone
    case _ | _ | _ => trivial
    · exact (inputsValid_unpkT_iff s).mpr ⟨r, hr⟩
    · exact (inputsValid_unpkH_iff s).mpr ⟨r, hr⟩
    · exact (inputsValid_unpkP_iff s).mpr ⟨r, hr⟩
    · exact (inputsValid_asmT_iff s).mpr ⟨v, hv⟩
    · exact (inputsValid_asmH_iff s).mpr ⟨v, hv⟩
    · exact (inputsValid_asmP_iff s).mpr ⟨v, hv⟩
    · simp [InputsValid, hr, hc]
    · simp [InputsValid, hx]
    · simp [InputsValid, hr, hc, hx]
    · simp [InputsValid, hr, hc, hx]

/-! ### The unpacking of a record that can be read (rules R111, R112) -/

theorem exec_unpkT_of_readTcal {r : TCal} (h : readTcal s.params s.img = some r) :
    exec .unpkT s = .next (writeTcal r s) := by
  rw [exec, execUnpkT, h]

theorem exec_unpkH_of_readHcal {r : HCal} (h : readHcal s.img = some r) :
    exec .unpkH s = .next (writeHcal r s) := by
  rw [exec, execUnpkH, h]

/-! ### What the readers make of their cells (rules R43, R72, R111, R112) -/

theorem s8_eq_signed8 (b : Byte) : s8 b = signed8 b.toNat := rfl

theorem s16_eq_signed16 (w : BitVec 16) : s16 w = signed16 w.toNat := rfl

theorem u16_packLowNibble (m s : Byte) : u16 (packLowNibble m s) = m.toNat * 16 + s.toNat % 16 := by
  rw [u16, toNat_packLowNibble]; norm_cast

theorem u16_packHighNibble (m s : Byte) : u16 (packHighNibble m s) = m.toNat * 16 + s.toNat / 16 := by
  rw [u16, toNat_packHighNibble]; norm_cast

/-- Both byte orders of a pair: `assemble16` takes the most significant byte first. -/
theorem exists_readPair_of_read (p : Params) {m : Memory} {a b : Nat} {first second : Byte}
    (ha : Memory.read m a = some first) (hb : Memory.read m b = some second) :
    ∃ w, readPair p m a b = some w ∧ w.toNat = pairNat p first second := by
  refine ⟨_, by rw [readPair, ha, hb], ?_⟩
  rw [pairNat]
  split <;> exact toNat_assemble16 _ _

theorem readTcal_of_reads {p : Params} {m : Memory} {t1 t2 : BitVec 16} {t3 : Byte}
    (h1 : readPair p m 0xE9 0xEA = some t1) (h2 : readPair p m 0x8A 0x8B = some t2)
    (h3 : Memory.read m 0x8C = some t3) :
    readTcal p m = some { par_t1 := t1, par_t2 := t2, par_t3 := t3 } := by
  simp [readTcal, h1, h2, h3]

theorem readHcal_of_reads {m : Memory} {bE1 bE2 bE3 bE4 bE5 bE6 bE7 bE8 : Byte}
    (h1 : Memory.read m 0xE1 = some bE1) (h2 : Memory.read m 0xE2 = some bE2)
    (h3 : Memory.read m 0xE3 = some bE3) (h4 : Memory.read m 0xE4 = some bE4)
    (h5 : Memory.read m 0xE5 = some bE5) (h6 : Memory.read m 0xE6 = some bE6)
    (h7 : Memory.read m 0xE7 = some bE7) (h8 : Memory.read m 0xE8 = some bE8) :
    readHcal m = some
      { par_h1 := packLowNibble bE3 bE2, par_h2 := packHighNibble bE1 bE2, par_h3 := bE4, par_h4 := bE5,
        par_h5 := bE6, par_h6 := bE7, par_h7 := bE8 } := by
  simp [readHcal, h1, h2, h3, h4, h5, h6, h7, h8]

end Sys2Proof.Machine

namespace Sys2Proof.Proofs

open Sys2Proof.Machine

/-- Settles O17: the record is the two pairs in the order of CAL16_LSB_FIRST and the byte of cell 0x8C. -/
theorem unpackTemperatureRecord : Obligations.UnpackTemperatureRecord := by
  refine ⟨fun s bE9 bEA b8A b8B b8C hE9 hEA h8A h8B h8C => ?record, fun s hmissing => ?missing⟩
  case record =>
    obtain ⟨t1, hread1, ht1⟩ := exists_readPair_of_read s.params hE9 hEA
    obtain ⟨t2, hread2, ht2⟩ := exists_readPair_of_read s.params h8A h8B
    refine ⟨_, exec_unpkT_of_readTcal (readTcal_of_reads hread1 hread2 h8C), ?_, ?_, s8_eq_signed8 b8C⟩
    · rw [u16, ht1]
    · rw [s16_eq_signed16, ht2]
  case missing => exact exec_of_not_inputsValid hmissing

/-- Settles O18: `par_h1` and `par_h2` take the low and the high nibble of cell 0xE2, the other fields a byte each. -/
theorem unpackHumidityRecord : Obligations.UnpackHumidityRecord := by
  refine ⟨fun s bE1 bE2 bE3 bE4 bE5 bE6 bE7 bE8 h1 h2 h3 h4 h5 h6 h7 h8 => ?record, fun s hmissing => ?missing⟩
  case record =>
    exact ⟨_, exec_unpkH_of_readHcal (readHcal_of_reads h1 h2 h3 h4 h5 h6 h7 h8),
      u16_packLowNibble bE3 bE2, u16_packHighNibble bE1 bE2,
      s8_eq_signed8 bE4, s8_eq_signed8 bE5, s8_eq_signed8 bE6, rfl, s8_eq_signed8 bE8⟩
  case missing => exact exec_of_not_inputsValid hmissing

end Sys2Proof.Proofs
end

section
/-!
PROOFS. The statements of 44_raw_assembly.md: the samples ASM.T (rule R120), ASM.H (rule R121) and ASM.P (rule R122)
assemble from their cells, and the InputNotValid that a missing cell raises.
-/

namespace Sys2Proof.Machine

/-! ### The 20-bit packing (rule R74) -/

theorem setWidth_ushiftRight_four (w : Nat) (s : Byte) : (s >>> 4).setWidth w = (s.extractLsb' 4 4).setWidth w := by
  have hshift : (s >>> 4).toNat = s.toNat / 16 := Nat.shiftRight_eq_div_pow s.toNat 4
  exact BitVec.eq_of_toNat_eq (by simp only [BitVec.toNat_setWidth, hshift, toNat_highNibble])

/-- A 20-bit sample is two bytes followed by the high nibble of the third. -/
theorem raw20_eq_append (msb lsb xlsb : Byte) :
    raw20 msb lsb xlsb = (msb ++ (lsb ++ xlsb.extractLsb' 4 4)).setWidth 32 := by
  rw [raw20, BitVec.or_assoc, setWidth_ushiftRight_four, BitVec.setWidth_append_eq_shiftLeft_setWidth_or,
    BitVec.setWidth_append_eq_shiftLeft_setWidth_or]

theorem toNat_raw20 (msb lsb xlsb : Byte) :
    (raw20 msb lsb xlsb).toNat = msb.toNat * 4096 + lsb.toNat * 16 + xlsb.toNat / 16 := by
  rw [raw20_eq_append, BitVec.toNat_setWidth_of_le (by decide), toNat_append_eq_mul_add, toNat_append_eq_mul_add,
    toNat_highNibble]
  omega

/-! ### What the sample readers make of valid cells (rules R42, R74) -/

theorem exists_readRaw20_of_read {m : Memory} {a b c : Nat} {msb lsb xlsb : Byte} (ha : Memory.read m a = some msb)
    (hb : Memory.read m b = some lsb) (hc : Memory.read m c = some xlsb) :
    ∃ v, readRaw20 m a b c = some v ∧ v.toNat = msb.toNat * 4096 + lsb.toNat * 16 + xlsb.toNat / 16 :=
  ⟨_, (readRaw20_eq_some m a b c _).mpr ⟨msb, lsb, xlsb, ha, hb, hc, rfl⟩, toNat_raw20 msb lsb xlsb⟩

theorem exists_readRaw16_of_read {m : Memory} {a b : Nat} {msb lsb : Byte} (ha : Memory.read m a = some msb)
    (hb : Memory.read m b = some lsb) :
    ∃ v, readRaw16 m a b = some v ∧ v.toNat = msb.toNat * 256 + lsb.toNat :=
  ⟨_, (readRaw16_eq_some m a b _).mpr ⟨msb, lsb, ha, hb, rfl⟩, toNat_assemble16 msb lsb⟩

/-! ### The assembly of a sample that can be read (rules R120 to R122) -/

variable {s : State}

theorem exec_asmT_of_readRaw20 {v : BitVec 32} (h : readRaw20 s.img 0x22 0x23 0x24 = some v) :
    exec .asmT s = .next { s with rawT := some v, tfine := none, tc := none, hum := none, press := none } := by
  rw [exec, execAsmT, h]; rfl

theorem exec_asmH_of_readRaw16 {v : BitVec 16} (h : readRaw16 s.img 0x25 0x26 = some v) :
    exec .asmH s = .next { s with rawH := some v, hum := none } := by
  rw [exec, execAsmH, h]; rfl

theorem exec_asmP_of_readRaw20 {v : BitVec 32} (h : readRaw20 s.img 0x1F 0x20 0x21 = some v) :
    exec .asmP s = .next { s with rawP := some v, press := none } := by
  rw [exec, execAsmP, h]; rfl

end Sys2Proof.Machine

namespace Sys2Proof.Proofs

open Sys2Proof.Machine

/-- Settles O22: three valid cells read as the packed sample, and ASM.T stores what it reads. -/
theorem assembleTemperatureSample : Obligations.AssembleTemperatureSample := by
  refine ⟨fun s b22 b23 b24 h22 h23 h24 => ?sample, fun s hmissing => ?missing⟩
  case sample =>
    obtain ⟨v, hread, hv⟩ := exists_readRaw20_of_read h22 h23 h24
    exact ⟨v, hv, exec_asmT_of_readRaw20 hread⟩
  case missing => exact exec_of_not_inputsValid hmissing

/-- Settles O23: two valid cells read as the assembled sample, and ASM.H stores what it reads. -/
theorem assembleHumiditySample : Obligations.AssembleHumiditySample := by
  refine ⟨fun s b25 b26 h25 h26 => ?sample, fun s hmissing => ?missing⟩
  case sample =>
    obtain ⟨v, hread, hv⟩ := exists_readRaw16_of_read h25 h26
    exact ⟨v, hv, exec_asmH_of_readRaw16 hread⟩
  case missing => exact exec_of_not_inputsValid hmissing

/-- Settles O24: three valid cells read as the packed sample, and ASM.P stores what it reads. -/
theorem assemblePressureSample : Obligations.AssemblePressureSample := by
  refine ⟨fun s b1F b20 b21 h1F h20 h21 => ?sample, fun s hmissing => ?missing⟩
  case sample =>
    obtain ⟨v, hread, hv⟩ := exists_readRaw20_of_read h1F h20 h21
    exact ⟨v, hv, exec_asmP_of_readRaw20 hread⟩
  case missing => exact exec_of_not_inputsValid hmissing

end Sys2Proof.Proofs
end

section
/-!
PROOFS. The statements of 45_compensation.md: what CMP.TF (rule R131) and CMP.TC (rule R132) deliver, and that the
result of a compensation depends on its input registers alone (rule R140).
-/

namespace Sys2Proof.Machine

variable {s : State}

/-! ### The compensation of inputs that are valid (rules R131 to R136) -/

theorem exec_cmpTf_of_eq_some {r : BitVec 32} {c : TCal} (hr : s.rawT = some r) (hc : s.tcal = some c) :
    exec .cmpTf s = .next (deliverTfine (fineTemperature r c) s) := by
  rw [exec, execCmpTf, hr, hc]

theorem exec_cmpTc_of_eq_some {x : Bits64} (hx : s.tfine = some x) :
    exec .cmpTc s = .next (deliverTc (temperatureCelsius (Fp.ofBits x)) s) := by
  rw [exec, execCmpTc, hx]

theorem exec_cmpH_of_eq_some {r : BitVec 16} {c : HCal} {x : Bits64} (hr : s.rawH = some r) (hc : s.hcal = some c)
    (hx : s.tc = some x) :
    exec .cmpH s = .next (deliverHum (humidityPercent r c (Fp.ofBits x)) s) := by
  rw [exec, execCmpH, hr, hc, hx]

theorem exec_cmpP_of_eq_some {r : BitVec 32} {c : PCal} {x : Bits64} (hr : s.rawP = some r) (hc : s.pcal = some c)
    (hx : s.tfine = some x) :
    exec .cmpP s = .next (deliverPress (pressurePascal s.params r c (Fp.ofBits x)) s) := by
  rw [exec, execCmpP, hr, hc, hx]

/-! ### One datum, delivered twice (rules R79, R140) -/

/-- Only a NaN has more than one delivered form, and all of those are quiet NaNs. -/
theorem sameDelivered_of_isResult {x : Fp} {v w : Bits64} (hv : isResult x v = true) (hw : isResult x w = true) :
    SameDelivered v w := by
  cases x with
  | nan => exact .inr ⟨hv, hw⟩
  | inf neg => exact .inl ((eq_of_beq hv).trans (eq_of_beq hw).symm)
  | fin neg mag => exact .inl ((eq_of_beq hv).trans (eq_of_beq hw).symm)

theorem sameDelivered_resultBits (x : Fp) (s s' : State) : SameDelivered (resultBits x s) (resultBits x s') :=
  sameDelivered_of_isResult (isResult_resultBits x s) (isResult_resultBits x s')

end Sys2Proof.Machine

namespace Sys2Proof.Proofs

open Sys2Proof.Machine

/-- Settles O26: CMP.TF delivers `fineTemperature`, whose definition names the nodes of the rule's tree. -/
theorem fineTemperatureResult : Obligations.FineTemperatureResult := by
  refine ⟨fun s raw c hr hc => ?result, fun s hmissing => ?missing⟩
  case result =>
    have hexec := exec_cmpTf_of_eq_some hr hc
    rw [deliverTfine_eq] at hexec
    exact ⟨_, _, hexec, isResult_resultBits (fineTemperature raw c) s⟩
  case missing => exact exec_of_not_inputsValid hmissing

/-- Settles O27: CMP.TC delivers `temperatureCelsius`, the quotient by 5120, of whatever pattern TFINE holds. -/
theorem celsiusResult : Obligations.CelsiusResult := by
  refine ⟨fun s x hx => ?result, fun s hmissing => ?missing⟩
  case result =>
    have hexec := exec_cmpTc_of_eq_some hx
    rw [deliverTc_eq] at hexec
    exact ⟨_, _, hexec, isResult_resultBits (temperatureCelsius (Fp.ofBits x)) s⟩
  case missing => exact exec_of_not_inputsValid hmissing

/-- Settles O35: on equal inputs both states deliver one datum, so the patterns differ at most in a NaN's draw. -/
theorem compensationDependsOnItsInputsOnly : Obligations.CompensationDependsOnItsInputsOnly := by
  intro s s'
  simp only [InputsValid, Option.isSome_iff_exists]
  refine ⟨?tf, ?tc, ?hum, ?press⟩
  case tf =>
    rintro hr' hc' ⟨⟨r, hr⟩, c, hc⟩
    exact ⟨_, _, _, _, exec_cmpTf_of_eq_some hr hc, exec_cmpTf_of_eq_some (hr'.trans hr) (hc'.trans hc), rfl, rfl,
      sameDelivered_resultBits (fineTemperature r c) s s'⟩
  case tc =>
    rintro hx' ⟨x, hx⟩
    exact ⟨_, _, _, _, exec_cmpTc_of_eq_some hx, exec_cmpTc_of_eq_some (hx'.trans hx), rfl, rfl,
      sameDelivered_resultBits (temperatureCelsius (Fp.ofBits x)) s s'⟩
  case hum =>
    rintro hr' hc' hx' ⟨⟨r, hr⟩, ⟨c, hc⟩, x, hx⟩
    exact ⟨_, _, _, _, exec_cmpH_of_eq_some hr hc hx,
      exec_cmpH_of_eq_some (hr'.trans hr) (hc'.trans hc) (hx'.trans hx), rfl, rfl,
      sameDelivered_resultBits (humidityPercent r c (Fp.ofBits x)) s s'⟩
  case press =>
    rintro hp hr' hc' hx' ⟨⟨r, hr⟩, ⟨c, hc⟩, x, hx⟩
    have hexec' := exec_cmpP_of_eq_some (hr'.trans hr) (hc'.trans hc) (hx'.trans hx)
    rw [hp] at hexec'
    exact ⟨_, _, _, _, exec_cmpP_of_eq_some hr hc hx, hexec', rfl, rfl,
      sameDelivered_resultBits (pressurePascal s.params r c (Fp.ofBits x)) s s'⟩

end Sys2Proof.Proofs
end

section
/-!
PROOFS. The statements of 60_exceptions.md: fault entry (rule R152), the exact input sets whose absence raises
InputNotValid (rule R155), and that a recorded fault stops nothing (rule R157).
-/

namespace Sys2Proof.Machine

variable {s t : State} {i : Instr}

/-! ### An operation that has its inputs (rule R155) -/

theorem exec_unpkP_of_readPcal {r : PCal} (h : readPcal s.params s.img = some r) :
    exec .unpkP s = .next (writePcal r s) := by
  rw [exec, execUnpkP, h]

/-- With its inputs valid an operation is the one named write of its register. -/
theorem destinationValid_of_exec (hi : needsInputs i = true) (hv : InputsValid i s) (h : exec i s = .next t) :
    destinationValid i t = true := by
  cases i
  case clrCyc | clrAll | clrErr => cases hi
  case unpkT => obtain ⟨r, -, rfl⟩ := exec_unpkT_of_inputsValid hv h; rfl
  case unpkH => obtain ⟨r, -, rfl⟩ := exec_unpkH_of_inputsValid hv h; rfl
  case unpkP => obtain ⟨r, -, rfl⟩ := exec_unpkP_of_inputsValid hv h; rfl
  case asmT => obtain ⟨v, -, rfl⟩ := exec_asmT_of_inputsValid hv h; rfl
  case asmH => obtain ⟨v, -, rfl⟩ := exec_asmH_of_inputsValid hv h; rfl
  case asmP => obtain ⟨v, -, rfl⟩ := exec_asmP_of_inputsValid hv h; rfl
  case cmpTf => obtain ⟨r, c, -, -, rfl⟩ := exec_cmpTf_of_inputsValid hv h; rfl
  case cmpTc => obtain ⟨x, -, rfl⟩ := exec_cmpTc_of_inputsValid hv h; rfl
  case cmpH => obtain ⟨r, c, x, -, -, -, rfl⟩ := exec_cmpH_of_inputsValid hv h; rfl
  case cmpP => obtain ⟨r, c, x, -, -, -, rfl⟩ := exec_cmpP_of_inputsValid hv h; rfl

/-! ### The record replaced (rules R152, R157) -/

section
variable (s) (e : Bool) (c : BitVec 3) (f : BitVec 12)

theorem withRecord_self : s.withRecord s.err s.ecode s.einfo = s := rfl

@[simp] theorem withRecord_withRecord (e' : Bool) (c' : BitVec 3) (f' : BitVec 12) :
    (s.withRecord e c f).withRecord e' c' f' = s.withRecord e' c' f' := rfl

/-- A fault changes the record alone. -/
@[simp] theorem withRecord_recorded (code : BitVec 3) (info : BitVec 12) :
    (recorded code info s).withRecord e c f = s.withRecord e c f := by
  unfold recorded
  split <;> rfl

theorem deliverTfine_withRecord (x : Fp) :
    deliverTfine x (s.withRecord e c f) = (deliverTfine x s).withRecord e c f := by
  rw [deliverTfine_eq, deliverTfine_eq]; rfl

theorem deliverTc_withRecord (x : Fp) : deliverTc x (s.withRecord e c f) = (deliverTc x s).withRecord e c f := by
  rw [deliverTc_eq, deliverTc_eq]; rfl

theorem deliverHum_withRecord (x : Fp) : deliverHum x (s.withRecord e c f) = (deliverHum x s).withRecord e c f := by
  rw [deliverHum_eq, deliverHum_eq]; rfl

theorem deliverPress_withRecord (x : Fp) :
    deliverPress x (s.withRecord e c f) = (deliverPress x s).withRecord e c f := by
  rw [deliverPress_eq, deliverPress_eq]; rfl

/-- The record is no input of an operation. -/
theorem inputsValid_withRecord_iff : InputsValid i (s.withRecord e c f) ↔ InputsValid i s := by
  cases i <;> rfl

/-- No data register is part of the record. -/
@[simp] theorem hostVal_withRecord (r : DataReg) : hostVal r (s.withRecord e c f) = hostVal r s := by
  cases r <;> rfl

theorem readPort_withRecord {h : HostAddr} (hh : h ≠ statusAddr) :
    readPort h (s.withRecord e c f) = readPort h s := by
  simp [readPort, hh]

/-- With its inputs valid an operation does the same beside any record and carries the record along. -/
theorem exec_withRecord_of_inputsValid (hi : needsInputs i = true) (hv : InputsValid i s) (h : exec i s = .next t) :
    exec i (s.withRecord e c f) = .next (t.withRecord e c f) := by
  cases i
  case clrCyc | clrAll | clrErr => cases hi
  case unpkT => obtain ⟨r, hr, rfl⟩ := exec_unpkT_of_inputsValid hv h; exact exec_unpkT_of_readTcal hr
  case unpkH => obtain ⟨r, hr, rfl⟩ := exec_unpkH_of_inputsValid hv h; exact exec_unpkH_of_readHcal hr
  case unpkP => obtain ⟨r, hr, rfl⟩ := exec_unpkP_of_inputsValid hv h; exact exec_unpkP_of_readPcal hr
  case asmT => obtain ⟨v, hr, rfl⟩ := exec_asmT_of_inputsValid hv h; exact exec_asmT_of_readRaw20 hr
  case asmH => obtain ⟨v, hr, rfl⟩ := exec_asmH_of_inputsValid hv h; exact exec_asmH_of_readRaw16 hr
  case asmP => obtain ⟨v, hr, rfl⟩ := exec_asmP_of_inputsValid hv h; exact exec_asmP_of_readRaw20 hr
  case cmpTf =>
    obtain ⟨r, k, hr, hk, rfl⟩ := exec_cmpTf_of_inputsValid hv h
    rw [← deliverTfine_withRecord]; exact exec_cmpTf_of_eq_some hr hk
  case cmpTc =>
    obtain ⟨x, hx, rfl⟩ := exec_cmpTc_of_inputsValid hv h
    rw [← deliverTc_withRecord]; exact exec_cmpTc_of_eq_some hx
  case cmpH =>
    obtain ⟨r, k, x, hr, hk, hx, rfl⟩ := exec_cmpH_of_inputsValid hv h
    rw [← deliverHum_withRecord]; exact exec_cmpH_of_eq_some hr hk hx
  case cmpP =>
    obtain ⟨r, k, x, hr, hk, hx, rfl⟩ := exec_cmpP_of_inputsValid hv h
    rw [← deliverPress_withRecord]; exact exec_cmpP_of_eq_some hr hk hx

/-- With its inputs valid an operation carries the record that stands along. -/
theorem sameFaultRecord_of_exec (hi : needsInputs i = true) (hv : InputsValid i s) (h : exec i s = .next t) :
    SameFaultRecord s t := by
  have hcarried := exec_withRecord_of_inputsValid s s.err s.ecode s.einfo hi hv h
  rw [withRecord_self, h, Host.Outcome.next.injEq] at hcarried
  rw [hcarried]
  exact ⟨rfl, rfl, rfl⟩

/-- An operation beside another record: the one state it answers differs at most in the record. -/
theorem exists_exec_withRecord (h : exec i s = .next t) :
    ∃ t', exec i (s.withRecord e c f) = .next t'
      ∧ t'.withRecord false 0#3 0#12 = t.withRecord false 0#3 0#12 := by
  by_cases hv : InputsValid i s
  · by_cases hi : needsInputs i = true
    · exact ⟨_, exec_withRecord_of_inputsValid s e c f hi hv h, by simp⟩
    · cases i <;> simp only [needsInputs, not_true_eq_false] at hi
      case clrCyc => rw [exec_clrCyc] at h; cases h; exact ⟨_, exec_clrCyc _, rfl⟩
      case clrAll => rw [exec_clrAll] at h; cases h; exact ⟨_, exec_clrAll _, rfl⟩
      case clrErr => rw [exec_clrErr] at h; cases h; exact ⟨_, exec_clrErr _, rfl⟩
  · have hv' : ¬ InputsValid i (s.withRecord e c f) := mt (inputsValid_withRecord_iff s e c f).mp hv
    rw [exec_of_not_inputsValid hv] at h
    cases h
    exact ⟨_, exec_of_not_inputsValid hv', by simp⟩

/-- A host write beside another record: the one state it answers differs at most in the record. -/
theorem exists_perform_write_withRecord {h : HostAddr} {d : Datum} (hw : perform (.write h d) s = .next t) :
    ∃ t', perform (.write h d) (s.withRecord e c f) = .next t'
      ∧ t'.withRecord false 0#3 0#12 = t.withRecord false 0#3 0#12 := by
  obtain ⟨a, d, he, ha, rfl⟩ | ⟨d, i, he, hd, hx⟩ | ⟨d, he, hd, rfl⟩ | ⟨d, he, rfl⟩ | ⟨d, he, rfl⟩
    | ⟨a, d, he, hu, rfl⟩ | ⟨a, he, -⟩ | ⟨he, -⟩ := perform_cases _ s t hw <;> cases he
  · exact ⟨_, perform_write_cell ha d _, rfl⟩
  · obtain ⟨t', hx', ht⟩ := exists_exec_withRecord s e c f hx
    exact ⟨t', (startOperation_of_decode_eq_some hd _).trans hx', ht⟩
  · exact ⟨_, startOperation_of_decode_eq_none hd _, by simp [raiseFault_eq_recorded]⟩
  · exact ⟨_, perform_write_tfine d _, rfl⟩
  · exact ⟨_, perform_write_tc d _, rfl⟩
  · exact ⟨_, perform_write_of_unwritable hu d _, by simp [raiseFault_eq_recorded]⟩

end

end Sys2Proof.Machine

namespace Sys2Proof.Proofs

open Sys2Proof.Machine

/-- Settles O12: a missing input is only recorded; with all inputs valid the operation writes its register and carries
the record along. -/
theorem missingInputRaisesInputNotValid : Obligations.MissingInputRaisesInputNotValid := by
  intro i s
  refine ⟨exec_of_not_inputsValid, fun hv hi => ?_⟩
  obtain ⟨t, ht⟩ := exists_exec_eq_next i s
  exact ⟨t, ht, sameFaultRecord_of_exec s hi hv ht, destinationValid_of_exec hi hv ht⟩

/-- Settles O13: what an operation or a write needs and changes beside the record does not come from the record. -/
theorem faultRecordDoesNotStopTheBlock : Obligations.FaultRecordDoesNotStopTheBlock := by
  intro s e c f
  exact ⟨fun i t h => exists_exec_withRecord s e c f h, fun h d t hw => exists_perform_write_withRecord s e c f hw,
    fun h hh => readPort_withRecord s e c f hh⟩

/-- Settles O11: the codes are the table of rule R153, and the two clauses are the two cases of `raiseFault`. -/
theorem faultEntryRecordsTheFirstFault : Obligations.FaultEntryRecordsTheFirstFault := by
  refine ⟨rfl, rfl, rfl, fun f info s => ?_⟩
  obtain ⟨he, hr⟩ | ⟨he, hr⟩ := raiseFault_cases f info s
  · exact ⟨fun hclear => by simp [he] at hclear, fun _ => hr⟩
  · exact ⟨fun _ => hr, fun hset => by simp [he] at hset⟩

end Sys2Proof.Proofs
end

section
/-!
PROOFS. What every step keeps (10_state.md): canonical containers (sections 2 to 4), a fault record that rules R25 and
R153 allow, and results that are not stale (rule R24 a and b); what the reset state meets of it (rule R170); and that
every step completes (rule R182).
-/

namespace Sys2Proof.Machine

variable {s t : State} {i : Instr} {e : HostEvent}

/-! ### Canonical containers (rules R12, R15, R18) -/

theorem readHcal_lt {m : Memory} {r : HCal} (h : readHcal m = some r) :
    r.par_h1.toNat < 4096 ∧ r.par_h2.toNat < 4096 := by
  simp only [readHcal, Option.bind_eq_bind, Option.bind_eq_some_iff] at h
  obtain ⟨m2, -, n, -, m1, -, b3, -, b4, -, b5, -, b6, -, b7, -, e⟩ := h
  cases e
  simp only [toNat_packLowNibble, toNat_packHighNibble]
  omega

theorem toNat_raw20_lt (msb lsb xlsb : Byte) : (raw20 msb lsb xlsb).toNat < 1048576 := by
  rw [toNat_raw20]
  omega

theorem readRaw20_lt {m : Memory} {a b c : Nat} {v : BitVec 32} (h : readRaw20 m a b c = some v) :
    v.toNat < 1048576 := by
  obtain ⟨x, y, z, -, -, -, rfl⟩ := (readRaw20_eq_some m a b c v).mp h
  exact toNat_raw20_lt x y z

theorem exec_keeps_canonical (hs : s.Canonical) (h : exec i s = .next t) : t.Canonical := by
  obtain ⟨himg, hh, hT, hP⟩ := id hs
  obtain ⟨-, rfl⟩ | ⟨-, hc⟩ | ⟨-, hc⟩ | ⟨-, rfl⟩ | ⟨-, r, -, rfl⟩ | ⟨-, r, hr, rfl⟩ | ⟨-, r, -, rfl⟩
    | ⟨-, v, hv, rfl⟩ | ⟨-, v, -, rfl⟩ | ⟨-, v, hv, rfl⟩ | ⟨-, r, c, -, -, rfl⟩ | ⟨-, x, -, rfl⟩
    | ⟨-, r, c, x, -, -, -, rfl⟩ | ⟨-, r, c, x, -, -, -, rfl⟩ := exec_cases i s t h
  · simpa [State.Canonical, raiseInputNotValid] using hs
  · cases hc; exact ⟨wf_clearRange s.img _ _ himg, hh, nofun, nofun⟩
  · cases hc; exact ⟨wf_clearRange s.img _ _ himg, nofun, nofun, nofun⟩
  · exact hs
  · exact hs
  · exact ⟨himg, fun c hc => by cases hc; exact readHcal_lt hr, hT, hP⟩
  · exact hs
  · exact ⟨himg, hh, fun w hw => by cases hw; exact readRaw20_lt hv, hP⟩
  · exact hs
  · exact ⟨himg, hh, hT, fun w hw => by cases hw; exact readRaw20_lt hv⟩
  · rw [deliverTfine_eq]; exact hs
  · rw [deliverTc_eq]; exact hs
  · rw [deliverHum_eq]; exact hs
  · rw [deliverPress_eq]; exact hs

/-- A read changes the answers and the count of draws alone (rules R51, R93). -/
theorem hostRead_eq (a : HostAddr) (s : State) :
    ∃ n l, hostRead a s = { s with draws := n, answers := l } := by
  unfold hostRead
  split <;> exact ⟨_, _, rfl⟩

theorem canonical_resetBlock (s : State) : (resetBlock s).Canonical :=
  ⟨rfl, nofun, nofun, nofun⟩

theorem perform_keeps_canonical (hs : s.Canonical) (h : perform e s = .next t) : t.Canonical := by
  obtain ⟨a, d, -, ha, rfl⟩ | ⟨d, i, -, -, hx⟩ | ⟨d, -, -, rfl⟩ | ⟨d, -, rfl⟩ | ⟨d, -, rfl⟩ | ⟨a, d, -, -, rfl⟩
    | ⟨a, -, rfl⟩ | ⟨-, rfl⟩ := perform_cases e s t h
  · exact ⟨wf_write s.img _ _ (by omega) hs.1, hs.2⟩
  · exact exec_keeps_canonical hs hx
  · simpa [State.Canonical] using hs
  · exact hs
  · exact hs
  · simpa [State.Canonical] using hs
  · obtain ⟨n, l, hr⟩ := hostRead_eq a s
    rw [hr]; exact hs
  · exact canonical_resetBlock s

/-! ### The fault record (rules R25, R152, R153) -/

theorem recordConsistent_of_sameFaultRecord (hs : s.RecordConsistent) (h : SameFaultRecord s t) :
    t.RecordConsistent := by
  obtain ⟨herr, hcode, hinfo⟩ := h
  rwa [State.RecordConsistent, herr, hcode, hinfo]

/-- A fault keeps the record consistent when its own code and information are (rule R152). -/
theorem recordConsistent_raiseFault {f : FaultKind} {info : BitVec 12} (hs : s.RecordConsistent)
    (hf : (s.withRecord true f.code info).RecordConsistent) : (raiseFault f info s).RecordConsistent := by
  obtain ⟨-, hr⟩ | ⟨-, hr⟩ := raiseFault_cases f info s
  · rwa [hr]
  · rwa [hr]

theorem recordConsistent_clearFault (s : State) : (clearFault s).RecordConsistent :=
  .inl ⟨rfl, rfl, rfl⟩

theorem exec_keeps_recordConsistent (hs : s.RecordConsistent) (h : exec i s = .next t) : t.RecordConsistent := by
  cases hi : needsInputs i
  case true =>
    by_cases hv : InputsValid i s
    · exact recordConsistent_of_sameFaultRecord hs (sameFaultRecord_of_exec s hi hv h)
    · rw [exec_of_not_inputsValid hv, ← raiseInputNotValid_eq_recorded] at h
      cases h
      exact recordConsistent_raiseFault hs (.inr (.inr (.inl ⟨rfl, rfl, i, hi, rfl⟩)))
  case false =>
    cases i <;> cases hi
    case clrCyc => cases h; exact hs
    case clrAll => cases h; exact recordConsistent_clearFault _
    case clrErr => cases h; exact recordConsistent_clearFault _

theorem perform_keeps_recordConsistent (hs : s.RecordConsistent) (h : perform e s = .next t) :
    t.RecordConsistent := by
  obtain ⟨a, d, -, -, rfl⟩ | ⟨d, i, -, -, hx⟩ | ⟨d, -, hd, rfl⟩ | ⟨d, -, rfl⟩ | ⟨d, -, rfl⟩ | ⟨a, d, -, hu, rfl⟩
    | ⟨a, -, rfl⟩ | ⟨-, rfl⟩ := perform_cases e s t h
  · exact hs
  · exact exec_keeps_recordConsistent hs hx
  · exact recordConsistent_raiseFault hs (.inr (.inl ⟨rfl, rfl, _, hd, rfl⟩))
  · exact hs
  · exact hs
  · exact recordConsistent_raiseFault hs (.inr (.inr (.inr ⟨rfl, rfl, hu⟩)))
  · obtain ⟨n, l, hr⟩ := hostRead_eq a s
    rw [hr]; exact hs
  · exact .inl ⟨rfl, rfl, rfl⟩

/-! ### Results that are not stale (rules R23, R24) -/

theorem humFresh_of_none (h : s.hum = none) : s.HumFresh := by
  simp [State.HumFresh, h]

theorem pressFresh_of_none (h : s.press = none) : s.PressFresh := by
  simp [State.PressFresh, h]

theorem fresh_of_none (hh : s.hum = none) (hp : s.press = none) : s.Fresh :=
  ⟨humFresh_of_none hh, pressFresh_of_none hp⟩

theorem fresh_raiseFault (f : FaultKind) (info : BitVec 12) (hs : s.Fresh) : (raiseFault f info s).Fresh := by
  simpa [State.Fresh, State.HumFresh, State.PressFresh] using hs

theorem humFresh_deliverHum {r : BitVec 16} {c : HCal} {x : Bits64} (hr : s.rawH = some r) (hc : s.hcal = some c)
    (hx : s.tc = some x) : (deliverHum (humidityPercent r c (Fp.ofBits x)) s).HumFresh := by
  rw [deliverHum_eq]
  intro v hv
  obtain rfl := Option.some.inj hv
  exact ⟨r, c, x, hr, hc, hx, isResult_resultBits _ s⟩

theorem pressFresh_deliverPress {r : BitVec 32} {c : PCal} {x : Bits64} (hr : s.rawP = some r) (hc : s.pcal = some c)
    (hx : s.tfine = some x) : (deliverPress (pressurePascal s.params r c (Fp.ofBits x)) s).PressFresh := by
  rw [deliverPress_eq]
  intro v hv
  obtain rfl := Option.some.inj hv
  exact ⟨r, c, x, hr, hc, hx, isResult_resultBits _ s⟩

theorem exec_keeps_fresh (hs : s.Fresh) (h : exec i s = .next t) : t.Fresh := by
  obtain ⟨hhum, hpress⟩ := id hs
  obtain ⟨-, rfl⟩ | ⟨-, hc⟩ | ⟨-, hc⟩ | ⟨-, rfl⟩ | ⟨-, r, -, rfl⟩ | ⟨-, r, -, rfl⟩ | ⟨-, r, -, rfl⟩
    | ⟨-, v, -, rfl⟩ | ⟨-, v, -, rfl⟩ | ⟨-, v, -, rfl⟩ | ⟨-, r, c, -, -, rfl⟩ | ⟨-, x, -, rfl⟩
    | ⟨-, r, c, x, hr, hc, hx, rfl⟩ | ⟨-, r, c, x, hr, hc, hx, rfl⟩ := exec_cases i s t h
  · exact fresh_raiseFault _ _ hs
  · cases hc; exact fresh_of_none rfl rfl
  · cases hc; exact fresh_of_none rfl rfl
  · exact hs
  · exact fresh_of_none rfl rfl
  · exact ⟨humFresh_of_none rfl, hpress⟩
  · exact ⟨hhum, pressFresh_of_none rfl⟩
  · exact fresh_of_none rfl rfl
  · exact ⟨humFresh_of_none rfl, hpress⟩
  · exact ⟨hhum, pressFresh_of_none rfl⟩
  · exact fresh_of_none rfl rfl
  · rw [deliverTc_eq]; exact ⟨humFresh_of_none rfl, hpress⟩
  · refine ⟨humFresh_deliverHum hr hc hx, ?_⟩
    rw [deliverHum_eq]; exact hpress
  · refine ⟨?_, pressFresh_deliverPress hr hc hx⟩
    rw [deliverPress_eq]; exact hhum

theorem perform_keeps_fresh (hs : s.Fresh) (h : perform e s = .next t) : t.Fresh := by
  obtain ⟨a, d, -, -, rfl⟩ | ⟨d, i, -, -, hx⟩ | ⟨d, -, -, rfl⟩ | ⟨d, -, rfl⟩ | ⟨d, -, rfl⟩ | ⟨a, d, -, -, rfl⟩
    | ⟨a, -, rfl⟩ | ⟨-, rfl⟩ := perform_cases e s t h
  · exact hs
  · exact exec_keeps_fresh hs hx
  · exact fresh_raiseFault _ _ hs
  · exact fresh_of_none rfl rfl
  · exact ⟨humFresh_of_none rfl, hs.2⟩
  · exact fresh_raiseFault _ _ hs
  · obtain ⟨n, l, hr⟩ := hostRead_eq a s
    rw [hr]; exact hs
  · exact fresh_of_none rfl rfl

/-! ### What no event touches, and that every event completes (rules R11, R182) -/

theorem exec_sameOwnFields (h : exec i s = .next t) : SameOwnFields s t := by
  obtain ⟨-, rfl⟩ | ⟨-, hc⟩ | ⟨-, hc⟩ | ⟨-, rfl⟩ | ⟨-, r, -, rfl⟩ | ⟨-, r, -, rfl⟩ | ⟨-, r, -, rfl⟩
    | ⟨-, v, -, rfl⟩ | ⟨-, v, -, rfl⟩ | ⟨-, v, -, rfl⟩ | ⟨-, r, c, -, -, rfl⟩ | ⟨-, x, -, rfl⟩
    | ⟨-, r, c, x, -, -, -, rfl⟩ | ⟨-, r, c, x, -, -, -, rfl⟩ := exec_cases i s t h
  · simp [SameOwnFields, raiseInputNotValid]
  · cases hc; exact ⟨rfl, rfl, rfl⟩
  · cases hc; exact ⟨rfl, rfl, rfl⟩
  · exact ⟨rfl, rfl, rfl⟩
  · exact ⟨rfl, rfl, rfl⟩
  · exact ⟨rfl, rfl, rfl⟩
  · exact ⟨rfl, rfl, rfl⟩
  · exact ⟨rfl, rfl, rfl⟩
  · exact ⟨rfl, rfl, rfl⟩
  · exact ⟨rfl, rfl, rfl⟩
  · rw [deliverTfine_eq]; exact ⟨rfl, rfl, rfl⟩
  · rw [deliverTc_eq]; exact ⟨rfl, rfl, rfl⟩
  · rw [deliverHum_eq]; exact ⟨rfl, rfl, rfl⟩
  · rw [deliverPress_eq]; exact ⟨rfl, rfl, rfl⟩

theorem perform_pending_params (h : perform e s = .next t) : t.pending = s.pending ∧ t.params = s.params := by
  obtain ⟨a, d, -, -, rfl⟩ | ⟨d, i, -, -, hx⟩ | ⟨d, -, -, rfl⟩ | ⟨d, -, rfl⟩ | ⟨d, -, rfl⟩ | ⟨a, d, -, -, rfl⟩
    | ⟨a, -, rfl⟩ | ⟨-, rfl⟩ := perform_cases e s t h
  · exact ⟨rfl, rfl⟩
  · obtain ⟨hparams, hpending, -⟩ := exec_sameOwnFields hx
    exact ⟨hpending, hparams⟩
  · simp
  · exact ⟨rfl, rfl⟩
  · exact ⟨rfl, rfl⟩
  · simp
  · obtain ⟨n, l, hr⟩ := hostRead_eq a s
    rw [hr]; exact ⟨rfl, rfl⟩
  · exact ⟨rfl, rfl⟩

/-- Every host transaction completes: each branch of a write answers a next state (rules R91, R92). -/
theorem exists_perform_eq_next (e : HostEvent) (s : State) : ∃ t, perform e s = .next t := by
  cases e with
  | read a => exact ⟨_, rfl⟩
  | reset => exact ⟨_, rfl⟩
  | write a d =>
    simp only [perform, hostWrite, startOperation]
    split
    · exact ⟨_, rfl⟩
    · split
      · split
        · exact exists_exec_eq_next _ s
        · exact ⟨_, rfl⟩
      · split
        · exact ⟨_, rfl⟩
        · split <;> exact ⟨_, rfl⟩

/-! ### The step (rule R53) -/

theorem step_of_pending_nil (h : s.pending = []) : step s = .next s := by
  rw [step, h]

theorem step_of_pending_cons {rest : List HostEvent} (h : s.pending = e :: rest) :
    step s = perform e { s with pending := rest } := by
  rw [step, h]

/-- What every event keeps, every step keeps, if it does not speak of the pending transactions. -/
theorem step_keeps {P : State → Prop} (hpending : ∀ s l, P s → P { s with pending := l })
    (hperform : ∀ e s t, P s → perform e s = .next t → P t) (hs : P s) (h : step s = .next t) : P t := by
  obtain ⟨-, rfl⟩ | ⟨e, rest, -, hp⟩ := step_cases s t h
  · exact hs
  · exact hperform e _ t (hpending s rest hs) hp

end Sys2Proof.Machine

namespace Sys2Proof.Proofs

open Sys2Proof.Machine

/-- Settles O52: the only new containers are packed nibbles, packed samples and written or cleared cells. -/
theorem stepKeepsTheContainersCanonical : Obligations.StepKeepsTheContainersCanonical :=
  fun _ _ hs h => step_keeps (fun _ _ hs => hs) (fun _ _ _ => perform_keeps_canonical) hs h

/-- Settles O53: a fault is recorded with its own code and information, everything else keeps or clears the record. -/
theorem stepKeepsTheFaultRecordConsistent : Obligations.StepKeepsTheFaultRecordConsistent :=
  fun _ _ hs h => step_keeps (fun _ _ hs => hs) (fun _ _ _ => perform_keeps_recordConsistent) hs h

/-- Settles O54: what writes an input of HUM or PRESS takes its value, and CMP.H and CMP.P deliver a fresh one. -/
theorem stepKeepsResultsFresh : Obligations.StepKeepsResultsFresh :=
  fun _ _ hs h => step_keeps (fun _ _ hs => hs) (fun _ _ _ => perform_keeps_fresh) hs h

/-- Settles O56: with nothing pending a step is idle, else it is the first event, and that completes. -/
theorem everyStepCompletes : Obligations.EveryStepCompletes := by
  intro s
  refine ⟨?completes, fun e rest hp => ?consumes⟩
  case completes =>
    cases hp : s.pending with
    | nil => exact ⟨s, step_of_pending_nil hp⟩
    | cons e rest => rw [step_of_pending_cons hp]; exact exists_perform_eq_next e _
  case consumes =>
    obtain ⟨t, ht⟩ := exists_perform_eq_next e { s with pending := rest }
    exact ⟨t, (step_of_pending_cons hp).trans ht, perform_pending_params ht⟩

/-- Settles O4: a step is its first event, and a write to CMD whose low byte decodes is that operation. -/
theorem stepRunsTheDecodedOperation : Obligations.StepRunsTheDecodedOperation := by
  refine ⟨fun s d rest i hp hd => ?_, fun s e rest => step_of_pending_cons, fun s => step_of_pending_nil⟩
  rw [step_of_pending_cons hp, perform_write_cmd, startOperation_of_decode_eq_some hd]

/-- Settles O5: the placed word is the first pending write, and the table's decoder reads the same low byte. -/
theorem placedWordRunsNext : Obligations.PlacedWordRunsNext := by
  intro s w i hw
  rw [step_of_pending_cons (s := s.withFetchWord 8 w) rfl]
  exact startOperation_of_decode_eq_some hw s

/-- Settles O55: no cell and no result stands after reset, the record is cleared, the defaults are admissible. -/
theorem resetMeetsTheInvariants : Obligations.ResetMeetsTheInvariants :=
  ⟨canonical_resetBlock State.reset, recordConsistent_clearFault State.reset, fresh_of_none rfl rfl, by decide⟩

/-- Settles O51: clearing a canonical image empties it, and CLR.ALL resets all else. -/
theorem clrAllEqualsReset : Obligations.ClrAllEqualsReset :=
  fun _ hs => exec_clrAll_of_wf hs

end Sys2Proof.Proofs
end

section
/-!
PROOFS. What an operation leaves unchanged (10_state.md section 9): the image (rule R12), HUM and PRESS as inputs
(rule R21), and the frames of the unpack, assembly and compensation operations. Then the records UNPK.P builds (rules
R113, R114) and what CMP.H and CMP.P deliver (rules R134, R136).
-/

namespace Sys2Proof.Machine

variable {s t : State} {i : Instr}

/-! ### The image (rules R12, R124) -/

/-- Only CLR.CYC and CLR.ALL touch the image. -/
theorem exec_sameImage (hcyc : i ≠ .clrCyc) (hall : i ≠ .clrAll) (h : exec i s = .next t) : SameImage s t := by
  obtain ⟨-, rfl⟩ | ⟨hi, -⟩ | ⟨hi, -⟩ | ⟨-, rfl⟩ | ⟨-, r, -, rfl⟩ | ⟨-, r, -, rfl⟩ | ⟨-, r, -, rfl⟩
    | ⟨-, v, -, rfl⟩ | ⟨-, v, -, rfl⟩ | ⟨-, v, -, rfl⟩ | ⟨-, r, c, -, -, rfl⟩ | ⟨-, x, -, rfl⟩
    | ⟨-, r, c, x, -, -, -, rfl⟩ | ⟨-, r, c, x, -, -, -, rfl⟩ := exec_cases i s t h
  · simp [SameImage, raiseInputNotValid]
  · exact absurd hi hcyc
  · exact absurd hi hall
  · exact fun a => rfl
  · exact fun a => rfl
  · exact fun a => rfl
  · exact fun a => rfl
  · exact fun a => rfl
  · exact fun a => rfl
  · exact fun a => rfl
  · rw [deliverTfine_eq]; exact fun a => rfl
  · rw [deliverTc_eq]; exact fun a => rfl
  · rw [deliverHum_eq]; exact fun a => rfl
  · rw [deliverPress_eq]; exact fun a => rfl

theorem read_clearRange_eq_or_none (m : Memory) (lo hi a : Nat) :
    Memory.read (Memory.clearRange m lo hi) a = Memory.read m a ∨ Memory.read (Memory.clearRange m lo hi) a = none := by
  rw [read_clearRange]
  split
  · exact .inr rfl
  · exact .inl rfl

/-! ### An operation without its inputs changes the record alone (rules R152, R155) -/

/-- What an operation that lacks an input answers: another record at most, and that the same or InputNotValid. -/
theorem exec_frame_of_not_inputsValid (hv : ¬ InputsValid i s) (h : exec i s = .next t) :
    (∃ e c f, t = s.withRecord e c f)
      ∧ (SameFaultRecord s t ∨ (s.err = false ∧ t = recorded 2#3 ((encode i).setWidth 12) s)) := by
  rw [exec_of_not_inputsValid hv] at h
  cases h
  cases he : s.err with
  | true =>
    have ht : recorded 2#3 ((encode i).setWidth 12) s = s := if_pos he
    rw [ht]
    exact ⟨⟨s.err, s.ecode, s.einfo, withRecord_self s⟩, .inl ⟨rfl, rfl, rfl⟩⟩
  | false => exact ⟨⟨true, 2#3, (encode i).setWidth 12, if_neg (by simp [he])⟩, .inr ⟨rfl, rfl⟩⟩

/-! ### HUM and PRESS are never inputs (rule R21) -/

theorem exists_exec_with_hum_press (h : exec i s = .next t) (v w : Option Bits64) :
    ∃ t', exec i { s with hum := v, press := w } = .next t'
      ∧ { t' with hum := none, press := none } = { t with hum := none, press := none } := by
  by_cases hv : InputsValid i s
  · cases i
    case clrCyc | clrAll | clrErr => cases h; exact ⟨_, rfl, rfl⟩
    case unpkT => obtain ⟨r, hr, rfl⟩ := exec_unpkT_of_inputsValid hv h; exact ⟨_, exec_unpkT_of_readTcal hr, rfl⟩
    case unpkH => obtain ⟨r, hr, rfl⟩ := exec_unpkH_of_inputsValid hv h; exact ⟨_, exec_unpkH_of_readHcal hr, rfl⟩
    case unpkP => obtain ⟨r, hr, rfl⟩ := exec_unpkP_of_inputsValid hv h; exact ⟨_, exec_unpkP_of_readPcal hr, rfl⟩
    case asmT => obtain ⟨r, hr, rfl⟩ := exec_asmT_of_inputsValid hv h; exact ⟨_, exec_asmT_of_readRaw20 hr, rfl⟩
    case asmH => obtain ⟨r, hr, rfl⟩ := exec_asmH_of_inputsValid hv h; exact ⟨_, exec_asmH_of_readRaw16 hr, rfl⟩
    case asmP => obtain ⟨r, hr, rfl⟩ := exec_asmP_of_inputsValid hv h; exact ⟨_, exec_asmP_of_readRaw20 hr, rfl⟩
    case cmpTf =>
      obtain ⟨r, k, hr, hk, rfl⟩ := exec_cmpTf_of_inputsValid hv h
      exact ⟨_, exec_cmpTf_of_eq_some hr hk, by rw [deliverTfine_eq, deliverTfine_eq]; rfl⟩
    case cmpTc =>
      obtain ⟨x, hx, rfl⟩ := exec_cmpTc_of_inputsValid hv h
      exact ⟨_, exec_cmpTc_of_eq_some hx, by rw [deliverTc_eq, deliverTc_eq]; rfl⟩
    case cmpH =>
      obtain ⟨r, k, x, hr, hk, hx, rfl⟩ := exec_cmpH_of_inputsValid hv h
      exact ⟨_, exec_cmpH_of_eq_some hr hk hx, by rw [deliverHum_eq, deliverHum_eq]⟩
    case cmpP =>
      obtain ⟨r, k, x, hr, hk, hx, rfl⟩ := exec_cmpP_of_inputsValid hv h
      exact ⟨_, exec_cmpP_of_eq_some hr hk hx, by rw [deliverPress_eq, deliverPress_eq]⟩
  · have hv' : ¬ InputsValid i { s with hum := v, press := w } := by cases i <;> exact hv
    rw [exec_of_not_inputsValid hv] at h
    cases h
    refine ⟨_, exec_of_not_inputsValid hv', ?_⟩
    simp only [recorded]
    split <;> rfl

/-! ### The pressure calibration record (rules R113, R114) -/

theorem pcalMap_wf_iff (m : PcalMap) :
    m.wf = true ↔
      m.par_p1 = ⟨0x8E#8, 0x8F#8⟩ ∧ m.par_p10 = 0xA0#8 ∧ m.cells.Nodup
        ∧ (∀ a ∈ m.cells, 0x8E ≤ a.toNat ∧ a.toNat ≤ 0xA0) ∧ m.par_p7.toNat < m.par_p6.toNat := by
  simp only [PcalMap.wf, PcalMap.keepsP1, PcalMap.keepsP10, PcalMap.distinct, PcalMap.inRange, PcalMap.p7BelowP6,
    Bool.and_eq_true, beq_iff_eq, decide_eq_true_eq, List.all_eq_true, and_assoc]

theorem exists_readCellPair_of_read (p : Params) {m : Memory} {c : CellPair} {b : BitVec 8 → Byte}
    (hl : Memory.read m c.lsb.toNat = some (b c.lsb)) (hm : Memory.read m c.msb.toNat = some (b c.msb)) :
    ∃ w, readCellPair p m c = some w ∧ w.toNat = pairNat p (b c.lsb) (b c.msb) :=
  exists_readPair_of_read p hl hm

/-- The record that a map's cells with the bytes `b` make: a pair in the order of CAL16_LSB_FIRST, a byte as it is. -/
def MadeOf (p : Params) (b : BitVec 8 → Byte) (r : PCal) : Prop :=
  r.par_p1.toNat = pairNat p (b p.pcalMap.par_p1.lsb) (b p.pcalMap.par_p1.msb)
    ∧ r.par_p2.toNat = pairNat p (b p.pcalMap.par_p2.lsb) (b p.pcalMap.par_p2.msb)
    ∧ r.par_p3 = b p.pcalMap.par_p3
    ∧ r.par_p4.toNat = pairNat p (b p.pcalMap.par_p4.lsb) (b p.pcalMap.par_p4.msb)
    ∧ r.par_p5.toNat = pairNat p (b p.pcalMap.par_p5.lsb) (b p.pcalMap.par_p5.msb)
    ∧ r.par_p6 = b p.pcalMap.par_p6
    ∧ r.par_p7 = b p.pcalMap.par_p7
    ∧ r.par_p8.toNat = pairNat p (b p.pcalMap.par_p8.lsb) (b p.pcalMap.par_p8.msb)
    ∧ r.par_p9.toNat = pairNat p (b p.pcalMap.par_p9.lsb) (b p.pcalMap.par_p9.msb)
    ∧ r.par_p10 = b p.pcalMap.par_p10

theorem exists_readPcal_of_read {p : Params} {m : Memory} {b : BitVec 8 → Byte}
    (h : ∀ a ∈ p.pcalMap.cells, Memory.read m a.toNat = some (b a)) :
    ∃ r, readPcal p m = some r ∧ MadeOf p b r := by
  simp only [PcalMap.cells, List.forall_mem_cons] at h
  obtain ⟨l1, m1, l2, m2, h3, l4, m4, l5, m5, h6, h7, l8, m8, l9, m9, h10, -⟩ := h
  obtain ⟨p1, r1, e1⟩ := exists_readCellPair_of_read p l1 m1
  obtain ⟨p2, r2, e2⟩ := exists_readCellPair_of_read p l2 m2
  obtain ⟨p4, r4, e4⟩ := exists_readCellPair_of_read p l4 m4
  obtain ⟨p5, r5, e5⟩ := exists_readCellPair_of_read p l5 m5
  obtain ⟨p8, r8, e8⟩ := exists_readCellPair_of_read p l8 m8
  obtain ⟨p9, r9, e9⟩ := exists_readCellPair_of_read p l9 m9
  refine ⟨⟨p1, p2, b p.pcalMap.par_p3, p4, p5, b p.pcalMap.par_p6, b p.pcalMap.par_p7, p8, p9, b p.pcalMap.par_p10⟩,
    ?_, e1, e2, rfl, e4, e5, rfl, rfl, e8, e9, rfl⟩
  simp [readPcal, r1, r2, h3, r4, r5, h6, h7, r8, r9, h10]

end Sys2Proof.Machine

namespace Sys2Proof.Proofs

open Sys2Proof.Machine

/-- Settles O58: the two clearing operations take values, every other operation keeps the image. -/
theorem operationsNeverWriteACell : Obligations.OperationsNeverWriteACell := by
  intro i s t a h
  refine ⟨?_, fun hcyc hall => exec_sameImage hcyc hall h a⟩
  by_cases hcyc : i = .clrCyc
  · subst hcyc; cases h; exact read_clearRange_eq_or_none s.img _ _ a
  · by_cases hall : i = .clrAll
    · subst hall; cases h; exact read_clearRange_eq_or_none s.img _ _ a
    · exact .inl (exec_sameImage hcyc hall h a)

/-- Settles O60: an operation with its inputs delivers the same, one without records the same fault. -/
theorem humAndPressAreNeverInputs : Obligations.HumAndPressAreNeverInputs :=
  fun _ _ _ v w h => exists_exec_with_hum_press h v w

/-- Settles O21: an unpack is the one named write of its record, or it changes the fault record alone. -/
theorem unpackFrame : Obligations.UnpackFrame := by
  intro i s t hi h
  by_cases hv : InputsValid i s
  · obtain rfl | rfl | rfl := hi
    · obtain ⟨r, -, rfl⟩ := exec_unpkT_of_inputsValid hv h
      simp [SameImage, SameRawSamples, SameOwnFields, SameFaultRecord]
    · obtain ⟨r, -, rfl⟩ := exec_unpkH_of_inputsValid hv h
      simp [SameImage, SameRawSamples, SameOwnFields, SameFaultRecord]
    · obtain ⟨r, -, rfl⟩ := exec_unpkP_of_inputsValid hv h
      simp [SameImage, SameRawSamples, SameOwnFields, SameFaultRecord]
  · obtain ⟨⟨e, c, f, rfl⟩, hrecord⟩ := exec_frame_of_not_inputsValid hv h
    simp [SameImage, SameRawSamples, SameOwnFields, hrecord]

/-- Settles O25: an assembly is the one named write of its sample, or it changes the fault record alone. -/
theorem assembleFrame : Obligations.AssembleFrame := by
  intro i s t hi h
  by_cases hv : InputsValid i s
  · obtain rfl | rfl | rfl := hi
    · obtain ⟨v, -, rfl⟩ := exec_asmT_of_inputsValid hv h
      simp [SameImage, SameCalibration, SameOwnFields, SameFaultRecord]
    · obtain ⟨v, -, rfl⟩ := exec_asmH_of_inputsValid hv h
      simp [SameImage, SameCalibration, SameOwnFields, SameFaultRecord]
    · obtain ⟨v, -, rfl⟩ := exec_asmP_of_inputsValid hv h
      simp [SameImage, SameCalibration, SameOwnFields, SameFaultRecord]
  · obtain ⟨⟨e, c, f, rfl⟩, hrecord⟩ := exec_frame_of_not_inputsValid hv h
    simp [SameImage, SameCalibration, SameOwnFields, hrecord]

/-- Settles O31: a compensation is the one delivery of its result, or it changes the fault record alone. -/
theorem compensateFrame : Obligations.CompensateFrame := by
  intro i s t hi h
  by_cases hv : InputsValid i s
  · obtain rfl | rfl | rfl | rfl := hi
    · obtain ⟨r, c, -, -, rfl⟩ := exec_cmpTf_of_inputsValid hv h
      simp [deliverTfine_eq, SameImage, SameCalibration, SameRawSamples, SameOwnFields, SameFaultRecord]
    · obtain ⟨x, -, rfl⟩ := exec_cmpTc_of_inputsValid hv h
      simp [deliverTc_eq, SameImage, SameCalibration, SameRawSamples, SameOwnFields, SameFaultRecord]
    · obtain ⟨r, c, x, -, -, -, rfl⟩ := exec_cmpH_of_inputsValid hv h
      simp [deliverHum_eq, SameImage, SameCalibration, SameRawSamples, SameOwnFields, SameFaultRecord]
    · obtain ⟨r, c, x, -, -, -, rfl⟩ := exec_cmpP_of_inputsValid hv h
      simp [deliverPress_eq, SameImage, SameCalibration, SameRawSamples, SameOwnFields, SameFaultRecord]
  · obtain ⟨⟨e, c, f, rfl⟩, hrecord⟩ := exec_frame_of_not_inputsValid hv h
    simp [SameImage, SameCalibration, SameRawSamples, SameOwnFields, hrecord]

/-- Settles O20: admissibility is the five checks, and the record is made of the map's cells field by field. -/
theorem unpackPressureRecordAnyMap : Obligations.UnpackPressureRecordAnyMap := by
  refine ⟨pcalMap_wf_iff, fun s hmissing => exec_of_not_inputsValid hmissing, fun s b h => ?_⟩
  obtain ⟨r, hr, e1, e2, e3, e4, e5, e6, e7, e8, e9, e10⟩ := exists_readPcal_of_read h
  refine ⟨r, exec_unpkP_of_readPcal hr, ?_⟩
  simp only [u16, u8, s16_eq_signed16, s8_eq_signed8, e1, e2, e3, e4, e5, e6, e7, e8, e9, e10, and_self]

/-- Settles O19: the record under any map, at the sixteen cells of the default map, least significant byte first. -/
theorem unpackPressureRecordDefaultMap : Obligations.UnpackPressureRecordDefaultMap := by
  refine ⟨fun s b8E b8F b90 b91 b92 b94 b95 b96 b97 b98 b99 b9C b9D b9E b9F bA0 hmap hlsb h8E h8F h90 h91 h92 h94 h95
    h96 h97 h98 h99 h9C h9D h9E h9F hA0 => ?record, fun s hmap ha => exec_of_not_inputsValid fun hv => ?missing⟩
  case record =>
    have hread : ∀ a ∈ s.params.pcalMap.cells,
        Memory.read s.img a.toNat = some ((Memory.read s.img a.toNat).getD 0#8) := by
      simp [hmap, pcalMapDefault, PcalMap.cells, h8E, h8F, h90, h91, h92, h94, h95, h96, h97, h98, h99, h9C, h9D, h9E,
        h9F, hA0]
    simpa [hmap, pcalMapDefault, pairNat, hlsb, h8E, h8F, h90, h91, h92, h94, h95, h96, h97, h98, h99, h9C, h9D, h9E,
      h9F, hA0] using unpackPressureRecordAnyMap.2.2 s _ hread
  case missing =>
    obtain ⟨a, hmem, hnone⟩ := ha
    have hcell : ∀ a ∈ [0x8E, 0x8F, 0x90, 0x91, 0x92, 0x94, 0x95, 0x96, 0x97, 0x98, 0x99, 0x9C, 0x9D, 0x9E, 0x9F, 0xA0],
        ∃ c ∈ pcalMapDefault.cells, c.toNat = a := by decide
    obtain ⟨c, hc, rfl⟩ := hcell a hmem
    have hvalid := hv c (by rwa [hmap])
    simp [hnone] at hvalid

/-- Settles O28: CMP.H delivers `humidityPercent`, whose definition names the nodes of the rule's tree. -/
theorem humidityResult : Obligations.HumidityResult := by
  refine ⟨fun s raw c x hr hc hx => ?_, fun s hmissing => exec_of_not_inputsValid hmissing⟩
  have hexec := exec_cmpH_of_eq_some hr hc hx
  rw [deliverHum_eq] at hexec
  exact ⟨_, _, hexec, isResult_resultBits (humidityPercent raw c (Fp.ofBits x)) s⟩

/-- Settles O29: CMP.P delivers the value of the parameter tree. -/
theorem pressureResult : Obligations.PressureResult := by
  refine ⟨fun s raw c x hr hc hx => ?_, fun s hmissing => exec_of_not_inputsValid hmissing⟩
  have hexec := exec_cmpP_of_eq_some hr hc hx
  rw [deliverPress_eq] at hexec
  exact ⟨_, _, hexec, isResult_resultBits (pressurePascal s.params raw c (Fp.ofBits x)) s⟩

/-- Settles O30: the default tree has a name for each line of the formula, and a node's value is its operation. -/
theorem defaultPressureTree : Obligations.DefaultPressureTree := by
  intro raw c t
  rfl

end Sys2Proof.Proofs
end

section
/-!
PROOFS. What the host reads: the answer of a read at each target (rule R93), the fields of STATUS (rule R25), and the
reads of the reset state (rules R33, R170). Then the 20-bit packing (rule R74).
-/

namespace Sys2Proof.Machine

variable {s : State} {h : HostAddr}

/-! ### The answer of a read (rules R90, R93) -/

theorem hostRead_of_readPort_eq_some {d : Datum} (hd : readPort h s = some d) : hostRead h s = answered d s := by
  rw [hostRead, hd, answered]

theorem answeredInvalid_hostRead (hn : readPort h s = none) : AnsweredInvalid s (hostRead h s) := by
  rw [hostRead, hn]
  exact ⟨_, rfl⟩

theorem readPort_of_le (hh : h.toNat ≤ 0x0FF) :
    readPort h s = (Memory.read s.img h.toNat).map fun b => b.setWidth 64 :=
  if_pos hh

theorem readPort_status (s : State) : readPort 0x100#12 s = some (statusWord s) := rfl

theorem readPort_of_dataRegAt_eq_none (himg : 0x0FF < h.toNat) (hstatus : h ≠ 0x100#12) (hr : dataRegAt h = none) :
    readPort h s = none := by
  simp [readPort, himg.not_ge, statusAddr, hstatus, hr]

/-! ### The reset state holds no value (rule R33) -/

theorem hostVal_reset (r : DataReg) : hostVal r State.reset = none := by
  cases r <;> rfl

theorem readPort_reset (hstatus : h ≠ 0x100#12) : readPort h State.reset = none := by
  by_cases himg : h.toNat ≤ 0x0FF
  · exact readPort_of_le himg
  · cases hr : dataRegAt h with
    | none => exact readPort_of_dataRegAt_eq_none (by omega) hstatus hr
    | some r => rw [readPort_eq_hostVal hr, hostVal_reset]

end Sys2Proof.Machine

namespace Sys2Proof.Proofs

open Sys2Proof.Machine

/-- Settles O8: the targets are the branches of the read port, and the answer is `ok = 1` exactly where it has a
datum. -/
theorem hostReadByTarget : Obligations.HostReadByTarget := by
  intro s h
  refine ⟨hostRead h s, rfl, fun hcell => ⟨fun b hb => ?cell, fun hn => ?noCell⟩, ?status,
    fun r hr => ⟨fun d hd => ?register, fun hn => ?noRegister⟩, fun himg hstatus hr => ?unmapped⟩
  case cell => exact hostRead_of_readPort_eq_some (by rw [readPort_of_le hcell, hb, Option.map_some])
  case noCell => exact answeredInvalid_hostRead (by rw [readPort_of_le hcell, hn, Option.map_none])
  case status =>
    rintro rfl
    exact hostRead_of_readPort_eq_some (readPort_status s)
  case register => exact hostRead_of_readPort_eq_some ((readPort_eq_hostVal hr s).trans hd)
  case noRegister => exact answeredInvalid_hostRead ((readPort_eq_hostVal hr s).trans hn)
  case unmapped => exact answeredInvalid_hostRead (readPort_of_dataRegAt_eq_none himg hstatus hr)

/-- Settles O10: STATUS is a concatenation, whose parts are peeled off from bit 0 up. -/
theorem statusWordFields : Obligations.StatusWordFields := by
  intro s
  rw [statusWord]
  refine ⟨?err, ?code, ?tcal, ?hcal, ?pcal, ?rawT, ?rawH, ?rawP, ?tfine, ?tc, ?hum, ?press, ?low, ?info, ?high⟩
  case code | low | info =>
    repeat rw [BitVec.extractLsb'_append_eq_of_le (by decide)]
    exact BitVec.extractLsb'_append_eq_right
  case high =>
    repeat rw [BitVec.extractLsb'_append_eq_of_le (by decide)]
    rfl
  all_goals -- a single bit
    repeat rw [BitVec.getLsbD_append]
    simp

/-- Settles O50: the reset step is the reset state beside the model's own fields, and nothing stands in that state. -/
theorem resetClearsEverything : Obligations.ResetClearsEverything :=
  ⟨fun _ => rfl, fun _ => rfl, rfl, rfl, rfl, by decide, fun _ => readPort_reset⟩

/-- Settles O49: a sample is two bytes and a nibble in positional form, 20 bits in all. -/
theorem twentyBitPacking : Obligations.TwentyBitPacking :=
  ⟨fun msb lsb xlsb => ⟨toNat_raw20 msb lsb xlsb, toNat_raw20_lt msb lsb xlsb⟩, fun _ _ => rfl⟩

end Sys2Proof.Proofs
end

section
/-!
PROOFS. The one rounding of 40_numerics.md section 2 (rule R75). The magnitudes of binary64 numbers are the points of a
grid, `x` with `2 ^ ulpExp x` dividing it; the rounding goes to the nearest point, of two nearest to the one with the
even significand. Exactness, overflow and closure follow from that.
-/

namespace Sys2Proof.Machine

/-! ### The two constants of the model, as powers whose exponent is a variable -/

theorem exists_fpTop_eq : ∃ e, e = 2098 ∧ fpTop = 2 ^ e :=
  ⟨2098, rfl, by decide +kernel⟩

theorem exists_fpOne_eq : ∃ e, e = 1074 ∧ fpOne = 2 ^ e :=
  ⟨1074, rfl, by decide +kernel⟩

theorem fpTop_pos : 0 < fpTop := by
  obtain ⟨e, -, he⟩ := exists_fpTop_eq
  rw [he]
  exact Nat.two_pow_pos e

theorem fpOne_pos : 0 < fpOne := by
  obtain ⟨e, -, he⟩ := exists_fpOne_eq
  rw [he]
  exact Nat.two_pow_pos e

/-! ### The grid of magnitudes -/

/-- A magnitude of at most 53 significant bits: a multiple of its own last place. -/
def OnGrid (x : Nat) : Prop :=
  2 ^ ulpExp x ∣ x

theorem representable_fin_iff (neg : Bool) (x : Nat) :
    (Fp.fin neg x).representable = true ↔ x < fpTop ∧ OnGrid x := by
  simp [Fp.representable, OnGrid, Nat.dvd_iff_mod_eq_zero]

theorem lt_two_pow_ulpExp (x : Nat) : x < 2 ^ (53 + ulpExp x) :=
  Nat.lt_log2_self.trans_le (Nat.pow_le_pow_right Nat.two_pos (by unfold ulpExp; omega))

theorem ulpExp_le_of_lt {x e : Nat} (h : x < 2 ^ (53 + e)) : ulpExp x ≤ e := by
  rcases Nat.eq_zero_or_pos x with rfl | hx
  · exact Nat.zero_le e
  · have hlog : x.log2 < 53 + e := (Nat.log2_lt hx.ne').mpr h
    unfold ulpExp
    omega

theorem le_ulpExp_of_le {x e : Nat} (h : 2 ^ (52 + e) ≤ x) : e ≤ ulpExp x := by
  have hx : x ≠ 0 := fun hx => absurd (hx ▸ h) (by simp)
  have hlog : 52 + e ≤ x.log2 := (Nat.le_log2 hx).mpr h
  unfold ulpExp
  omega

theorem two_pow_le_of_ulpExp_pos {x : Nat} (h : 0 < ulpExp x) : 2 ^ (52 + ulpExp x) ≤ x := by
  have hlog : 52 + ulpExp x = x.log2 := by unfold ulpExp at h ⊢; omega
  have hx : x ≠ 0 := by rintro rfl; exact absurd h (by decide)
  exact hlog ▸ Nat.log2_self_le hx

/-- A multiple of `2 ^ e` with a 53-bit quotient is on the grid. -/
theorem onGrid_of_dvd_of_lt {x e : Nat} (hdvd : 2 ^ e ∣ x) (hlt : x < 2 ^ (53 + e)) : OnGrid x :=
  (pow_dvd_pow 2 (ulpExp_le_of_lt hlt)).trans hdvd

theorem onGrid_mul_two_pow {m : Nat} (hm : m ≤ 2 ^ 53) (e : Nat) : OnGrid (m * 2 ^ e) := by
  rcases hm.lt_or_eq with hlt | rfl
  · refine onGrid_of_dvd_of_lt (Nat.dvd_mul_left _ m) ?_
    rw [pow_add]
    exact Nat.mul_lt_mul_of_pos_right hlt (Nat.two_pow_pos e)
  · rw [← pow_add]
    refine onGrid_of_dvd_of_lt (e := 53 + e) dvd_rfl (Nat.pow_lt_pow_right (by decide) (by omega))

/-- The last place of a magnitude with a full significand, or with the least exponent. -/
theorem ulpExp_mul_two_pow {r e : Nat} (hr : r < 2 ^ 53) (h : e = 0 ∨ 2 ^ 52 ≤ r) : ulpExp (r * 2 ^ e) = e := by
  refine Nat.le_antisymm (ulpExp_le_of_lt ?_) ?_
  · rw [pow_add]
    exact Nat.mul_lt_mul_of_pos_right hr (Nat.two_pow_pos e)
  · rcases h with rfl | h
    · exact Nat.zero_le _
    · refine le_ulpExp_of_le ?_
      rw [pow_add]
      exact Nat.mul_le_mul_right _ h

/-- A significand that is even, or that carries over into the next exponent, leaves an even significand. -/
theorem significand_even {r e : Nat} (hr : r ≤ 2 ^ 53) (h : e = 0 ∨ 2 ^ 52 ≤ r) (heven : r % 2 = 0) :
    r * 2 ^ e / 2 ^ ulpExp (r * 2 ^ e) % 2 = 0 := by
  rcases hr.lt_or_eq with hlt | rfl
  · rw [ulpExp_mul_two_pow hlt h, Nat.mul_div_cancel _ (Nat.two_pow_pos e), heven]
  · have hcarry : 2 ^ 53 * 2 ^ e = 2 ^ 52 * 2 ^ (e + 1) := by rw [← pow_add, ← pow_add]; congr 1; omega
    rw [hcarry, ulpExp_mul_two_pow (by decide) (.inr le_rfl), Nat.mul_div_cancel _ (Nat.two_pow_pos _)]
    rfl

/-- The point of the grid before `2 ^ (53 + e)` has the full significand at the exponent `e`. -/
theorem le_of_onGrid_of_lt {x e : Nat} (hx : OnGrid x) (hlt : x < 2 ^ (53 + e)) : x ≤ (2 ^ 53 - 1) * 2 ^ e := by
  have hsig := lt_two_pow_ulpExp x
  obtain ⟨k, hk⟩ := hx
  rw [pow_add, Nat.mul_comm] at hsig
  have hle : k ≤ 2 ^ 53 - 1 := Nat.le_sub_one_of_lt (Nat.lt_of_mul_lt_mul_left (hk.symm.trans_lt hsig))
  calc x = k * 2 ^ ulpExp x := hk.trans (Nat.mul_comm _ _)
    _ ≤ (2 ^ 53 - 1) * 2 ^ e := Nat.mul_le_mul hle (Nat.pow_le_pow_right Nat.two_pos (ulpExp_le_of_lt hlt))

theorem significand_full (e : Nat) : (2 ^ 53 - 1) * 2 ^ e / 2 ^ ulpExp ((2 ^ 53 - 1) * 2 ^ e) = 2 ^ 53 - 1 := by
  rw [ulpExp_mul_two_pow (by decide) (.inr (by decide)), Nat.mul_div_cancel _ (Nat.two_pow_pos _)]

theorem onGrid_two_pow (e : Nat) : OnGrid (2 ^ e) :=
  Nat.one_mul (2 ^ e) ▸ onGrid_mul_two_pow (by decide) e

theorem onGrid_fpTop : OnGrid fpTop := by
  obtain ⟨e, -, he⟩ := exists_fpTop_eq
  rw [he]
  exact onGrid_two_pow e

theorem onGrid_mul_fpOne {m : Nat} (hm : m ≤ 2 ^ 53) : OnGrid (m * fpOne) := by
  obtain ⟨e, -, he⟩ := exists_fpOne_eq
  rw [he]
  exact onGrid_mul_two_pow hm e

theorem mul_two_pow_lt_fpTop {m e : Nat} (hm : m < 2 ^ 53) (he : e ≤ 2045) : m * 2 ^ e < fpTop := by
  obtain ⟨k, hk, htop⟩ := exists_fpTop_eq
  calc m * 2 ^ e < 2 ^ 53 * 2 ^ e := Nat.mul_lt_mul_of_pos_right hm (Nat.two_pow_pos e)
    _ = 2 ^ (53 + e) := (pow_add 2 53 e).symm
    _ ≤ 2 ^ k := Nat.pow_le_pow_right Nat.two_pos (by omega)
    _ = fpTop := htop.symm

theorem mul_fpOne_lt_fpTop {m : Nat} (hm : m < 2 ^ 53) : m * fpOne < fpTop := by
  obtain ⟨e, he, hone⟩ := exists_fpOne_eq
  rw [hone]
  exact mul_two_pow_lt_fpTop hm (by omega)

/-! ### Rounding to a whole number -/

section
variable {n d : Nat} (hd : 0 < d)
include hd

/-- The rounded number is within one half of `n / d`, and at one half it is even. -/
theorem roundHalfEven_spec (n : Nat) :
    2 * (roundHalfEven n d * d) ≤ 2 * n + d ∧ 2 * n ≤ 2 * (roundHalfEven n d * d) + d
      ∧ (2 * (roundHalfEven n d * d) = 2 * n + d ∨ 2 * n = 2 * (roundHalfEven n d * d) + d →
        roundHalfEven n d % 2 = 0) := by
  have hn : n / d * d + n % d = n := Nat.div_add_mod' n d
  have hlt : n % d < d := Nat.mod_lt n hd
  unfold roundHalfEven
  split
  · omega
  · split
    · rw [Nat.add_mul]; omega
    · split
      · omega
      · rw [Nat.add_mul]; omega

theorem roundHalfEven_le {k : Nat} (h : n ≤ k * d) : roundHalfEven n d ≤ k := by
  obtain ⟨hle, -, -⟩ := roundHalfEven_spec hd n
  by_contra hk
  have hstep : (k + 1) * d ≤ roundHalfEven n d * d := Nat.mul_le_mul_right d (by omega)
  rw [Nat.add_mul] at hstep
  omega

theorem le_roundHalfEven {k : Nat} (h : k * d ≤ n) : k ≤ roundHalfEven n d := by
  obtain ⟨-, hle, -⟩ := roundHalfEven_spec hd n
  by_contra hk
  have hstep : (roundHalfEven n d + 1) * d ≤ k * d := Nat.mul_le_mul_right d (by omega)
  rw [Nat.add_mul] at hstep
  omega

/-- Two multiples of `d` are `d` apart, so no other one is nearer to `n`, and one as near makes the rounding even. -/
theorem roundHalfEven_nearest (n k : Nat) :
    ((roundHalfEven n d * d : Nat) - n : Int).natAbs ≤ ((k * d : Nat) - n : Int).natAbs
      ∧ (k ≠ roundHalfEven n d →
        ((roundHalfEven n d * d : Nat) - n : Int).natAbs = ((k * d : Nat) - n : Int).natAbs →
        roundHalfEven n d % 2 = 0) := by
  obtain ⟨hle, hge, htie⟩ := roundHalfEven_spec hd n
  generalize roundHalfEven n d = r at hle hge htie
  rcases Nat.lt_trichotomy k r with hk | rfl | hk
  · have hstep : (k + 1) * d ≤ r * d := Nat.mul_le_mul_right d hk
    rw [Nat.add_mul] at hstep
    exact ⟨by omega, fun _ heq => htie (by omega)⟩
  · exact ⟨le_rfl, fun hne => absurd rfl hne⟩
  · have hstep : (r + 1) * d ≤ k * d := Nat.mul_le_mul_right d hk
    rw [Nat.add_mul] at hstep
    exact ⟨by omega, fun _ heq => htie (by omega)⟩

end

theorem roundHalfEven_mul_right {k : Nat} (hk : 0 < k) (n d : Nat) :
    roundHalfEven (n * k) (d * k) = roundHalfEven n d := by
  have hleft : 2 * (n % d * k) < d * k ↔ 2 * (n % d) < d := by
    rw [← Nat.mul_assoc]; exact Nat.mul_lt_mul_right hk
  have hright : d * k < 2 * (n % d * k) ↔ d < 2 * (n % d) := by
    rw [← Nat.mul_assoc]; exact Nat.mul_lt_mul_right hk
  simp only [roundHalfEven, Nat.mul_mod_mul_right, Nat.mul_div_mul_right _ _ hk, hleft, hright]

/-! ### Rounding to the grid -/

/-- The magnitude that `roundToBinary64` compares with the least one that is too large. -/
def roundMag (n d : Nat) : Nat :=
  roundHalfEven n (d * 2 ^ ulpExp (n / d)) * 2 ^ ulpExp (n / d)

theorem roundToBinary64_eq (neg : Bool) (n d : Nat) :
    roundToBinary64 neg n d = if roundMag n d < fpTop then .fin neg (roundMag n d) else .inf neg := rfl

section
variable {n d : Nat} (hd : 0 < d)
include hd

/-- The significand before a carry has 53 bits, and no fewer unless the exponent is the least. -/
theorem significand_bounds (n : Nat) :
    roundHalfEven n (d * 2 ^ ulpExp (n / d)) ≤ 2 ^ 53
      ∧ (ulpExp (n / d) = 0 ∨ 2 ^ 52 * (d * 2 ^ ulpExp (n / d)) ≤ n) := by
  have hlt := lt_two_pow_ulpExp (n / d)
  have hle := @two_pow_le_of_ulpExp_pos (n / d)
  generalize ulpExp (n / d) = e at hlt hle
  have hD : 0 < d * 2 ^ e := Nat.mul_pos hd (Nat.two_pow_pos e)
  have hmul (k : Nat) : 2 ^ (k + e) * d = 2 ^ k * (d * 2 ^ e) := by rw [pow_add]; ring
  constructor
  · refine roundHalfEven_le hD ?_
    rw [← hmul]
    exact ((Nat.div_lt_iff_lt_mul hd).mp hlt).le
  · rcases Nat.eq_zero_or_pos e with he | he
    · exact .inl he
    · rw [← hmul]
      exact .inr ((Nat.le_div_iff_mul_le hd).mp (hle he))

theorem onGrid_roundMag (n : Nat) : OnGrid (roundMag n d) :=
  onGrid_mul_two_pow (significand_bounds hd n).1 _

/-- The rounding is a nearest point of the grid; when another point is as near, its significand is even. -/
theorem roundMag_nearest (n : Nat) {y : Nat} (hy : OnGrid y) :
    ((roundMag n d * d : Nat) - n : Int).natAbs ≤ ((y * d : Nat) - n : Int).natAbs
      ∧ (y ≠ roundMag n d → ((roundMag n d * d : Nat) - n : Int).natAbs = ((y * d : Nat) - n : Int).natAbs →
        roundMag n d / 2 ^ ulpExp (roundMag n d) % 2 = 0) := by
  obtain ⟨hr, he⟩ := significand_bounds hd n
  rw [roundMag]
  generalize ulpExp (n / d) = e at hr he
  have hD : 0 < d * 2 ^ e := Nat.mul_pos hd (Nat.two_pow_pos e)
  have hmul (k : Nat) : k * 2 ^ e * d = k * (d * 2 ^ e) := by ring
  have hnearest := roundHalfEven_nearest hD n
  have hfull : e = 0 ∨ 2 ^ 52 ≤ roundHalfEven n (d * 2 ^ e) := he.imp_right (le_roundHalfEven hD)
  generalize roundHalfEven n (d * 2 ^ e) = r at *
  by_cases hdvd : 2 ^ e ∣ y
  · -- a multiple of the last place
    obtain ⟨k, rfl⟩ := hdvd
    obtain ⟨hle, htie⟩ := hnearest k
    rw [Nat.mul_comm _ k, hmul, hmul]
    exact ⟨hle, fun hne heq => significand_even hr hfull (htie (fun hk => hne (by rw [hk])) heq)⟩
  · -- a finer point lies below the binade of `n / d`, further away than the least point of the binade
    have hn : 2 ^ 52 * (d * 2 ^ e) ≤ n := he.resolve_left fun h => hdvd (by simp [h])
    have hlow : y < 2 ^ (52 + e) := by
      by_contra hge
      exact hdvd ((pow_dvd_pow 2 (le_ulpExp_of_le (not_lt.mp hge))).trans hy)
    have hylow : y * d < 2 ^ 52 * (d * 2 ^ e) := by
      rw [← hmul, ← pow_add]
      exact Nat.mul_lt_mul_of_pos_right hlow hd
    obtain ⟨hle, -⟩ := hnearest (2 ^ 52)
    rw [hmul]
    exact ⟨by omega, fun _ heq => by omega⟩

/-- A point of the grid is its own rounding. -/
theorem roundMag_of_onGrid {x : Nat} (hx : OnGrid x) : roundMag (x * d) d = x := by
  obtain ⟨hle, -⟩ := roundMag_nearest hd (x * d) hx
  exact Nat.eq_of_mul_eq_mul_right hd (by omega)

/-- Rounding stays below a power of two up to the midpoint between it and the point of the grid before it: on the
midpoint the tie goes to the power of two, since the other's full significand is odd. -/
theorem roundMag_lt_two_pow_iff (n e : Nat) : roundMag n d < 2 ^ (54 + e) ↔ n < (2 ^ 54 - 1) * (2 ^ e * d) := by
  have htop := roundMag_nearest hd n (onGrid_two_pow (54 + e))
  have hbefore := roundMag_nearest hd n (onGrid_mul_two_pow (Nat.sub_le (2 ^ 53) 1) (e + 1))
  have hpow : 2 ^ (54 + e) * d = 2 ^ 54 * (2 ^ e * d) := by rw [pow_add, Nat.mul_assoc]
  have hfull : (2 ^ 53 - 1) * 2 ^ (e + 1) * d = (2 ^ 54 - 2) * (2 ^ e * d) := by rw [pow_succ]; ring
  have hp : 0 < 2 ^ e * d := Nat.mul_pos (Nat.two_pow_pos e) hd
  rw [hpow] at htop
  rw [hfull] at hbefore
  constructor
  · intro hlt
    have hexp : 54 + e = 53 + (e + 1) := by omega
    have hle := Nat.mul_le_mul_right d (le_of_onGrid_of_lt (onGrid_roundMag hd n) (hexp ▸ hlt))
    rw [hfull] at hle
    by_contra hge
    have heq : roundMag n d = (2 ^ 53 - 1) * 2 ^ (e + 1) := Nat.eq_of_mul_eq_mul_right hd (by omega)
    have heven := htop.2 hlt.ne' (by omega)
    rw [heq, significand_full] at heven
    exact absurd heven (by decide)
  · intro hlt
    by_contra hge
    have hle := Nat.mul_le_mul_right d (not_lt.mp hge)
    rw [hpow] at hle
    omega

/-- Overflow begins at the midpoint `mid` between the largest finite magnitude and `fpTop` (rule R75). -/
theorem roundMag_lt_fpTop_iff {e mid : Nat} (he : e = 2044) (hmid : mid = (2 ^ 54 - 1) * 2 ^ e) (n : Nat) :
    roundMag n d < fpTop ↔ n < mid * d := by
  obtain ⟨k, hk, htop⟩ := exists_fpTop_eq
  have hexp : k = 54 + e := by omega
  rw [htop, hexp, hmid, Nat.mul_assoc]
  exact roundMag_lt_two_pow_iff hd n e

/-- A value of at least `fpTop` rounds to no smaller magnitude: `fpTop` itself is on the grid. -/
theorem fpTop_le_roundMag (h : fpTop * d ≤ n) : fpTop ≤ roundMag n d := by
  by_contra hlt
  have hmul := Nat.mul_lt_mul_of_pos_right (not_le.mp hlt) hd
  have hnearest := (roundMag_nearest hd n onGrid_fpTop).1
  omega

end

theorem roundMag_mul_right {k : Nat} (hk : 0 < k) (n d : Nat) : roundMag (n * k) (d * k) = roundMag n d := by
  rw [roundMag, Nat.mul_div_mul_right _ _ hk, Nat.mul_right_comm d k, roundHalfEven_mul_right hk]
  rfl

theorem onGrid_zero : OnGrid 0 :=
  Nat.dvd_zero _

theorem representable_zero (neg : Bool) : (Fp.fin neg 0).representable = true :=
  (representable_fin_iff neg 0).mpr ⟨fpTop_pos, onGrid_zero⟩

/-! ### The datum a rounding gives (rule R75) -/

section
variable (neg : Bool) {n d : Nat} (hd : 0 < d)

theorem roundToBinary64_of_lt (h : roundMag n d < fpTop) : roundToBinary64 neg n d = .fin neg (roundMag n d) :=
  if_pos h

theorem roundToBinary64_mul_right {k : Nat} (hk : 0 < k) (n d : Nat) :
    roundToBinary64 neg (n * k) (d * k) = roundToBinary64 neg n d := by
  rw [roundToBinary64_eq, roundToBinary64_eq, roundMag_mul_right hk]

include hd

theorem roundToBinary64_of_fpTop_le (h : fpTop * d ≤ n) : roundToBinary64 neg n d = .inf neg :=
  if_neg (fpTop_le_roundMag hd h).not_gt

theorem representable_roundToBinary64 (n : Nat) : (roundToBinary64 neg n d).representable = true := by
  rw [roundToBinary64_eq]
  split
  · exact (representable_fin_iff neg _).mpr ⟨by assumption, onGrid_roundMag hd n⟩
  · rfl

/-- An exact result that is a binary64 number is the result. -/
theorem roundToBinary64_of_onGrid {x : Nat} (hx : OnGrid x) (hlt : x < fpTop) :
    roundToBinary64 neg (x * d) d = .fin neg x := by
  have hmag := roundMag_of_onGrid hd hx
  rw [roundToBinary64_of_lt neg (hmag.symm ▸ hlt), hmag]

theorem roundToBinary64_zero : roundToBinary64 neg 0 d = .fin neg 0 := by
  have h := roundToBinary64_of_onGrid neg hd onGrid_zero fpTop_pos
  rwa [Nat.zero_mul] at h

end

/-! ### The conversion (rule R76) -/

theorem f64_eq {i : Int} (hi : i.natAbs < 2 ^ 53) : f64 i = .fin (decide (i < 0)) (i.natAbs * fpOne) := by
  have h := roundToBinary64_of_onGrid (decide (i < 0)) Nat.one_pos (onGrid_mul_fpOne hi.le) (mul_fpOne_lt_fpTop hi)
  rwa [Nat.mul_one] at h

theorem f64_of_nonneg {i : Int} (h0 : 0 ≤ i) (hi : i.natAbs < 2 ^ 53) : f64 i = .fin false (i.natAbs * fpOne) := by
  rw [f64_eq hi, decide_eq_false h0.not_gt]

/-! ### The operations keep to binary64 data -/

theorem fadd_inf_inf (s t : Bool) : fadd (.inf s) (.inf t) = if s = t then .inf s else .nan := rfl

theorem fadd_fin_fin (s t : Bool) (x y : Nat) : fadd (.fin s x) (.fin t y) = faddFinite s x t y := rfl

theorem fmul_inf_fin (s t : Bool) (y : Nat) :
    fmul (.inf s) (.fin t y) = if y = 0 then .nan else .inf (s ^^ t) := rfl

theorem fmul_fin_inf (s t : Bool) (x : Nat) :
    fmul (.fin s x) (.inf t) = if x = 0 then .nan else .inf (s ^^ t) := rfl

theorem fmul_fin_fin (s t : Bool) (x y : Nat) :
    fmul (.fin s x) (.fin t y) = roundToBinary64 (s ^^ t) (x * y) fpOne := rfl

theorem fdiv_fin_fin (s t : Bool) (x y : Nat) :
    fdiv (.fin s x) (.fin t y) =
      if y = 0 then (if x = 0 then .nan else .inf (s ^^ t)) else roundToBinary64 (s ^^ t) (x * fpOne) y := rfl

theorem representable_fneg {a : Fp} (ha : a.representable = true) : (fneg a).representable = true := by
  cases a <;> exact ha

theorem representable_faddFinite (s t : Bool) (x y : Nat) : (faddFinite s x t y).representable = true := by
  unfold faddFinite
  split
  · exact representable_zero _
  · exact representable_roundToBinary64 _ Nat.one_pos _

theorem representable_fadd {a b : Fp} (ha : a.representable = true) (hb : b.representable = true) :
    (fadd a b).representable = true := by
  rcases a with _ | s | ⟨s, x⟩ <;> rcases b with _ | t | ⟨t, y⟩
  case nan.nan | nan.inf | nan.fin | inf.nan | inf.fin | fin.nan | fin.inf => rfl
  case inf.inf => rw [fadd_inf_inf]; split <;> rfl
  case fin.fin => exact representable_faddFinite s t x y

theorem representable_fmul (a b : Fp) : (fmul a b).representable = true := by
  rcases a with _ | s | ⟨s, x⟩ <;> rcases b with _ | t | ⟨t, y⟩
  case nan.nan | nan.inf | nan.fin | inf.nan | inf.inf | fin.nan => rfl
  case inf.fin => rw [fmul_inf_fin]; split <;> rfl
  case fin.inf => rw [fmul_fin_inf]; split <;> rfl
  case fin.fin => exact representable_roundToBinary64 _ fpOne_pos _

theorem representable_fdiv (a b : Fp) : (fdiv a b).representable = true := by
  rcases a with _ | s | ⟨s, x⟩ <;> rcases b with _ | t | ⟨t, y⟩
  case nan.nan | nan.inf | nan.fin | inf.nan | inf.inf | inf.fin | fin.nan => rfl
  case fin.inf => exact representable_zero _
  case fin.fin =>
    rw [fdiv_fin_fin]
    split
    case isTrue => split <;> rfl
    case isFalse hy => exact representable_roundToBinary64 _ (Nat.pos_of_ne_zero hy) _

/-! ### Operations with a NaN or a zero (rules R77, R78) -/

theorem fadd_nan_right (a : Fp) : fadd a .nan = .nan := by
  cases a <;> rfl

theorem fmul_nan_right (a : Fp) : fmul a .nan = .nan := by
  cases a <;> rfl

theorem fdiv_nan_right (a : Fp) : fdiv a .nan = .nan := by
  cases a <;> rfl

theorem fmul_zero_left (s t : Bool) (y : Nat) : fmul (.fin s 0) (.fin t y) = .fin (s ^^ t) 0 := by
  rw [fmul_fin_fin, Nat.zero_mul, roundToBinary64_zero _ fpOne_pos]

theorem fsub_self_fin (s : Bool) (x : Nat) : fsub (.fin s x) (.fin s x) = .fin false 0 := by
  cases s <;> simp [fsub, fneg, fadd, faddFinite, signedMag]

end Sys2Proof.Machine

namespace Sys2Proof.Proofs

open Sys2Proof.Machine

/-- Settles O38: the rounding is the nearest point of the grid, and it overflows from the midpoint on. -/
theorem roundingIsToNearestTiesToEven : Obligations.RoundingIsToNearestTiesToEven := by
  intro neg n d hd
  refine ⟨fun hn => ?finite, fun hn => ?overflow⟩
  case finite =>
    have hlt := (roundMag_lt_fpTop_iff hd (e := 2044) rfl (by decide +kernel) n).mpr hn
    exact ⟨roundMag n d, roundToBinary64_of_lt neg hlt, (representable_fin_iff neg _).mpr ⟨hlt, onGrid_roundMag hd n⟩,
      fun y hy => roundMag_nearest hd n ((representable_fin_iff neg y).mp hy).2⟩
  case overflow =>
    refine if_neg fun hlt => hn.not_gt ?_
    exact (roundMag_lt_fpTop_iff hd (e := 2044) rfl (by decide +kernel) n).mp hlt

/-- Settles O39: the operations on finite operands are defined by the rounding of their exact result. -/
theorem operationsRoundTheExactResultOnce : Obligations.OperationsRoundTheExactResultOnce := by
  intro s t x y
  refine ⟨fun hsum => if_neg hsum, fun hsum => if_pos hsum, rfl, ?product, fun hy => ?quotient⟩
  case product => rw [fmul_fin_fin, fpOne]
  case quotient => rw [fdiv_fin_fin, if_neg hy, fpOne]

/-- Settles O40: each exceptional value is its own branch of the operation, and 2^1024 is no finite magnitude. -/
theorem exceptionalValues : Obligations.ExceptionalValues := by
  refine ⟨fun s t x hx => ?divZero, fun s t => rfl, fun s => ?infMinusInf, fun s t => ⟨rfl, rfl⟩, fun s t => rfl,
    fun a => ?nan, fun neg n d hd hn => ?overflow⟩
  case divZero => rw [fdiv_fin_fin, if_pos rfl, if_neg hx]
  case infMinusInf => cases s <;> rfl
  case nan =>
    exact ⟨rfl, fadd_nan_right a, rfl, fadd_nan_right a, rfl, fmul_nan_right a, rfl, fdiv_nan_right a⟩
  case overflow => exact roundToBinary64_of_fpTop_le neg hd (by rwa [fpTop])

/-- Settles O41: a zero times a finite number is a zero of the product sign, an exact zero sum is +0 but for two -0. -/
theorem signedZeros : Obligations.SignedZeros :=
  ⟨fun x _ => fmul_zero_left false true x, rfl, rfl, fsub_self_fin, by decide +kernel⟩

/-- Settles O42: an integer below 2^53 is on the grid, where rounding changes nothing. -/
theorem integerConversionIsExact : Obligations.IntegerConversionIsExact := by
  intro i hi
  rw [f64_eq hi, fpOne]

end Sys2Proof.Proofs
end

section
/-!
PROOFS. The 64-bit patterns of binary64 data (20_memory.md section 2, rules R45, R75): a pattern is a sign bit before a
63-bit number, whose fields are the biased exponent and the fraction; reading and writing a pattern are inverse. Then
that patterns and operations give binary64 data only, and the allowed replacement of 40_numerics.md section 3.
-/

namespace Sys2Proof.Machine

/-! ### The fields of a pattern -/

/-- The pattern of a sign bit and the number in bits 62:0. -/
def packBits (neg : Bool) (n : Nat) : Bits64 :=
  signBits neg ||| BitVec.ofNat 64 n

theorem toNat_packBits (neg : Bool) {n : Nat} (hn : n < 2 ^ 63) :
    (packBits neg n).toNat = neg.toNat * 2 ^ 63 + n := by
  have hor : 2 ^ 63 * 1 + n = 2 ^ 63 * 1 ||| n := Nat.two_pow_add_eq_or_of_lt hn 1
  have hlow : (BitVec.ofNat 64 n).toNat = n := by rw [BitVec.toNat_ofNat]; omega
  rw [packBits, BitVec.toNat_or, hlow]
  cases neg
  · simp [signBits]
  · simpa [signBits] using hor.symm

theorem toNat_exponentField (v : Bits64) : (v.extractLsb' 52 11).toNat = v.toNat / 2 ^ 52 % 2 ^ 11 := by
  rw [BitVec.extractLsb'_toNat, Nat.shiftRight_eq_div_pow]

theorem toNat_fractionField (v : Bits64) : (v.extractLsb' 0 52).toNat = v.toNat % 2 ^ 52 := by
  rw [BitVec.extractLsb'_toNat, Nat.shiftRight_zero]

theorem toNat_signField (v : Bits64) : (v.getLsbD 63).toNat = v.toNat / 2 ^ 63 := by
  have hlt : v.toNat < 2 ^ 64 := v.isLt
  rw [BitVec.getLsbD, Nat.testBit_eq_decide_div_mod_eq]
  rcases (show v.toNat / 2 ^ 63 = 0 ∨ v.toNat / 2 ^ 63 = 1 by omega) with h | h <;> rw [h] <;> rfl

theorem packBits_fields (v : Bits64) :
    packBits (v.getLsbD 63) ((v.extractLsb' 52 11).toNat * 2 ^ 52 + (v.extractLsb' 0 52).toNat) = v := by
  have hexp := (v.extractLsb' 52 11).isLt
  have hfrac := (v.extractLsb' 0 52).isLt
  apply BitVec.eq_of_toNat_eq
  rw [toNat_packBits _ (by omega), toNat_signField, toNat_exponentField, toNat_fractionField]
  omega

/-- The datum of a pattern, by its fields: the infinities and NaNs, the subnormal and the normal numbers. -/
theorem ofBits_packBits (neg : Bool) {e f : Nat} (he : e < 2 ^ 11) (hf : f < 2 ^ 52) :
    Fp.ofBits (packBits neg (e * 2 ^ 52 + f)) =
      if e = 2047 then (if f = 0 then .inf neg else .nan)
      else if e = 0 then .fin neg f else .fin neg ((2 ^ 52 + f) * 2 ^ (e - 1)) := by
  have hnat := toNat_packBits neg (n := e * 2 ^ 52 + f) (by omega)
  have hneg : neg.toNat ≤ 1 := Bool.toNat_le neg
  generalize packBits neg (e * 2 ^ 52 + f) = v at hnat
  have hexp : (v.extractLsb' 52 11).toNat = e := by rw [toNat_exponentField]; omega
  have hfrac : (v.extractLsb' 0 52).toNat = f := by rw [toNat_fractionField]; omega
  have hsign : v.getLsbD 63 = neg :=
    (by decide : ∀ a b : Bool, a.toNat = b.toNat → a = b) _ _ (by rw [toNat_signField]; omega)
  simp only [Fp.ofBits, ← BitVec.toNat_inj, hexp, hfrac, hsign]
  rfl

theorem ofBits_of_isQuietNaN {v : Bits64} (hv : isQuietNaN v = true) : Fp.ofBits v = .nan := by
  simp only [isQuietNaN, Bool.and_eq_true, beq_iff_eq] at hv
  obtain ⟨hexp, hquiet⟩ := hv
  have hfrac : v.extractLsb' 0 52 ≠ 0#52 := fun h => by
    have hbit : (v.extractLsb' 0 52).getLsbD 51 = true := by simpa using hquiet
    rw [h] at hbit
    exact absurd hbit (by decide)
  rw [Fp.ofBits, if_pos hexp, if_neg hfrac]

/-! ### The pattern of a datum, by its fields -/

theorem toBits_inf (c : BitVec 64) (neg : Bool) : Fp.toBits c (.inf neg) = packBits neg (2047 * 2 ^ 52 + 0) := rfl

theorem toBits_subnormal (c : BitVec 64) (neg : Bool) {f : Nat} (hf : f < 2 ^ 52) :
    Fp.toBits c (.fin neg f) = packBits neg (0 * 2 ^ 52 + f) := by
  have hulp : ulpExp f = 0 := Nat.le_zero.mp (ulpExp_le_of_lt (by omega))
  rw [Fp.toBits, hulp, pow_zero, Nat.div_one, packBits]

theorem toBits_normal (c : BitVec 64) (neg : Bool) {f : Nat} (hf : f < 2 ^ 52) (e : Nat) :
    Fp.toBits c (.fin neg ((2 ^ 52 + f) * 2 ^ e)) = packBits neg ((e + 1) * 2 ^ 52 + f) := by
  have hulp : ulpExp ((2 ^ 52 + f) * 2 ^ e) = e := ulpExp_mul_two_pow (by omega) (.inr (by omega))
  have hfields : e * 2 ^ 52 + (2 ^ 52 + f) = (e + 1) * 2 ^ 52 + f := by ring
  rw [Fp.toBits, hulp, Nat.mul_div_cancel _ (Nat.two_pow_pos e), hfields, packBits]

/-- A finite binary64 number is subnormal or has a full significand (rule R75). -/
theorem finite_cases {x : Nat} (hx : OnGrid x) (hlt : x < fpTop) :
    x < 2 ^ 52 ∨ ∃ f e, f < 2 ^ 52 ∧ e ≤ 2045 ∧ x = (2 ^ 52 + f) * 2 ^ e := by
  rcases lt_or_ge x (2 ^ 52) with hsub | hnorm
  · exact .inl hsub
  · right
    obtain ⟨k, hk, htop⟩ := exists_fpTop_eq
    have hexp : ulpExp x ≤ 2045 := ulpExp_le_of_lt (by rwa [htop, show k = 53 + 2045 from hk] at hlt)
    have hlow : 2 ^ (52 + ulpExp x) ≤ x := by
      rcases Nat.eq_zero_or_pos (ulpExp x) with h | h
      · rwa [h]
      · exact two_pow_le_of_ulpExp_pos h
    have hhigh := lt_two_pow_ulpExp x
    obtain ⟨m, hm⟩ := hx
    generalize ulpExp x = e at *
    subst hm
    rw [pow_add, Nat.mul_comm] at hlow hhigh
    have hm52 := Nat.le_of_mul_le_mul_left hlow (Nat.two_pow_pos e)
    have hm53 := Nat.lt_of_mul_lt_mul_right hhigh
    refine ⟨m - 2 ^ 52, e, by omega, hexp, ?_⟩
    rw [Nat.mul_comm, Nat.add_sub_cancel' hm52]

theorem toBits_ofBits {v : Bits64} (hv : Fp.ofBits v ≠ .nan) (c : BitVec 64) : (Fp.ofBits v).toBits c = v := by
  have hexp := (v.extractLsb' 52 11).isLt
  have hfrac := (v.extractLsb' 0 52).isLt
  have hfields := packBits_fields v
  generalize (v.extractLsb' 52 11).toNat = e at *
  generalize (v.extractLsb' 0 52).toNat = f at *
  generalize v.getLsbD 63 = neg at hfields
  subst hfields
  rw [ofBits_packBits _ hexp hfrac] at hv ⊢
  split_ifs at hv ⊢ with hspecial hinf hzero
  · rw [hspecial, hinf, toBits_inf]
  · exact absurd rfl hv
  · rw [hzero, toBits_subnormal c _ hfrac]
  · rw [toBits_normal c _ hfrac, Nat.sub_add_cancel (Nat.pos_of_ne_zero hzero)]

theorem ofBits_toBits {x : Fp} (hx : x.representable = true) (c : BitVec 64) : Fp.ofBits (x.toBits c) = x := by
  cases x with
  | nan => exact ofBits_of_isQuietNaN (isQuietNaN_quietNaN c)
  | inf neg => rw [toBits_inf, ofBits_packBits neg (by decide) (by decide), if_pos rfl, if_pos rfl]
  | fin neg m =>
    obtain ⟨hlt, hgrid⟩ := (representable_fin_iff neg m).mp hx
    obtain hsub | ⟨f, e, hf, he, rfl⟩ := finite_cases hgrid hlt
    · rw [toBits_subnormal c neg hsub, ofBits_packBits neg (by decide) hsub, if_neg (by decide), if_pos rfl]
    · rw [toBits_normal c neg hf, ofBits_packBits neg (by omega) hf, if_neg (by omega), if_neg (by omega),
        Nat.add_sub_cancel]

/-! ### Every pattern is a binary64 datum -/

theorem representable_ofBits (v : Bits64) : (Fp.ofBits v).representable = true := by
  have hexp := (v.extractLsb' 52 11).isLt
  have hfrac := (v.extractLsb' 0 52).isLt
  rw [← packBits_fields v, ofBits_packBits _ hexp hfrac]
  generalize (v.extractLsb' 52 11).toNat = e at *
  generalize (v.extractLsb' 0 52).toNat = f at *
  split_ifs with hspecial hinf hzero
  · rfl
  · rfl
  · have hgrid := onGrid_mul_two_pow (m := f) (by omega) 0
    have hlt := mul_two_pow_lt_fpTop (m := f) (e := 0) (by omega) (by decide)
    rw [pow_zero, Nat.mul_one] at hgrid hlt
    exact (representable_fin_iff _ f).mpr ⟨hlt, hgrid⟩
  · exact (representable_fin_iff _ _).mpr
      ⟨mul_two_pow_lt_fpTop (by omega) (by omega), onGrid_mul_two_pow (by omega) (e - 1)⟩

theorem representable_f64 (i : Int) : (f64 i).representable = true :=
  representable_roundToBinary64 _ Nat.one_pos _

/-! ### Halving (40_numerics.md section 3) -/

/-- 0.5 is half of 1.0. -/
theorem exists_half : ∃ h, fpOne = h * 2 ∧ Fp.ofBits 0x3FE0000000000000#64 = .fin false h :=
  ⟨2 ^ 1073, by decide +kernel, by decide +kernel⟩

theorem f64_two : f64 2 = .fin false (fpOne * 2) := by
  rw [f64_of_nonneg (by decide) (by decide), show (2 : Int).natAbs = 2 from rfl, Nat.mul_comm]

end Sys2Proof.Machine

namespace Sys2Proof.Proofs

open Sys2Proof.Machine

/-- Settles O43: a non-NaN pattern is the packing of its datum's fields, and a NaN is delivered from its draw. -/
theorem patternsRoundTrip : Obligations.PatternsRoundTrip :=
  ⟨fun c _ hv => toBits_ofBits hv c, fun c _ hx => ofBits_toBits hx c, isQuietNaN_quietNaN⟩

/-- Settles O44: a finite result is a rounding or a zero, and a pattern's significand has 53 bits at most. -/
theorem operationsKeepToBinary64 : Obligations.OperationsKeepToBinary64 :=
  ⟨representable_ofBits, representable_f64, fun a b ha hb => ⟨representable_fadd ha hb,
    representable_fadd ha (representable_fneg hb), representable_fmul a b, representable_fdiv a b⟩⟩

/-- Settles O45: for a finite number both sides round the same quotient, written with a common factor 2. -/
theorem halvingByDivisionOrMultiplication : Obligations.HalvingByDivisionOrMultiplication := by
  intro x
  obtain ⟨h, hone, hhalf⟩ := exists_half
  have hpos : h ≠ 0 := by rintro rfl; exact absurd hone fpOne_pos.ne'
  rw [hhalf, f64_two]
  cases x with
  | nan => rfl
  | inf neg => rw [fmul_inf_fin, if_neg hpos]; rfl
  | fin neg m =>
    have htwo : fpOne * 2 ≠ 0 := (Nat.mul_pos fpOne_pos Nat.two_pos).ne'
    calc fdiv (.fin neg m) (.fin false (fpOne * 2))
        = roundToBinary64 (neg ^^ false) (m * fpOne) (fpOne * 2) := by rw [fdiv_fin_fin, if_neg htwo]
      _ = roundToBinary64 (neg ^^ false) (m * h * 2) (fpOne * 2) := by rw [Nat.mul_assoc, ← hone]
      _ = roundToBinary64 (neg ^^ false) (m * h) fpOne := roundToBinary64_mul_right _ Nat.two_pos _ _
      _ = fmul (.fin neg m) (.fin false h) := (fmul_fin_fin neg false m h).symm

end Sys2Proof.Proofs
end

section
/-!
PROOFS. The fine temperature (45_compensation.md section 1, rule R131). Every node of its tree but the last addition is
exact (40_numerics.md rule R82): each has a value `a * 2 ^ e` with `a` below 2^53, and the operations are followed on
these values. So the result is the exact value rounded once, from which its bound and its monotonicity follow.
-/

namespace Sys2Proof.Machine

/-! ### Data with a whole significand -/

/-- The finite number `a * 2 ^ e`, in multiples of 2^-1074; a zero may have either sign. -/
def HasValue (x : Fp) (a : Int) (e : Nat) : Prop :=
  ∃ neg, x = .fin neg (a.natAbs * 2 ^ e) ∧ signedMag neg a.natAbs = a

theorem signedMag_mul (neg : Bool) (m n : Nat) : signedMag neg (m * n) = signedMag neg m * n := by
  cases neg <;> simp [signedMag]

theorem signedMag_xor (s t : Bool) (m n : Nat) : signedMag (s ^^ t) (m * n) = signedMag s m * signedMag t n := by
  cases s <;> cases t <;> simp [signedMag]

theorem signedMag_not (neg : Bool) (m : Nat) : signedMag (!neg) m = -signedMag neg m := by
  cases neg <;> simp [signedMag]

theorem natAbs_signedMag_sub (neg : Bool) (m n : Nat) :
    (signedMag neg m - signedMag neg n).natAbs = ((m : Int) - n).natAbs := by
  cases neg
  · rfl
  · simp only [signedMag, if_true]
    omega

theorem natAbs_signedMag (neg : Bool) (m : Nat) : (signedMag neg m).natAbs = m := by
  cases neg <;> simp [signedMag]

theorem signedMag_natAbs (a : Int) : signedMag (decide (a < 0)) a.natAbs = a := by
  rcases lt_or_ge a 0 with h | h
  · simp [signedMag, h, abs_of_neg h]
  · simp [signedMag, h.not_gt, abs_of_nonneg h]

section
variable {x y : Fp} {a b : Int} {e : Nat}

theorem hasValue_roundToBinary64 {neg : Bool} {m n d : Nat} (hd : 0 < d) (hn : n = m * 2 ^ e * d) (hm : m < 2 ^ 53)
    (he : e ≤ 2045) (ha : signedMag neg m = a) : HasValue (roundToBinary64 neg n d) a e := by
  have hmag : a.natAbs = m := ha ▸ natAbs_signedMag neg m
  refine ⟨neg, ?_, by rw [hmag, ha]⟩
  rw [hmag, hn, roundToBinary64_of_onGrid neg hd (onGrid_mul_two_pow hm.le e) (mul_two_pow_lt_fpTop hm he)]

/-- The significand may carry a power of two that the exponent does not. -/
theorem hasValue_add_iff (k : Nat) : HasValue x a (e + k) ↔ HasValue x (a * 2 ^ k) e := by
  have hmag : (a * 2 ^ k).natAbs = a.natAbs * 2 ^ k := by simp [Int.natAbs_mul, Int.natAbs_pow]
  have hpow : a.natAbs * 2 ^ k * 2 ^ e = a.natAbs * 2 ^ (e + k) := by rw [pow_add]; ring
  have hpos : (2 ^ k : Int) ≠ 0 := by positivity
  have hsign (neg : Bool) : signedMag neg (a.natAbs * 2 ^ k) = a * 2 ^ k ↔ signedMag neg a.natAbs = a := by
    rw [signedMag_mul, Nat.cast_pow, Nat.cast_ofNat, mul_left_inj' hpos]
  simp only [HasValue, hmag, hpow, hsign]

theorem hasValue_f64 {i : Int} (hi : i.natAbs < 2 ^ 53) : HasValue (f64 i) i 1074 := by
  obtain ⟨u, hu, hone⟩ := exists_fpOne_eq
  rw [← hu]
  exact ⟨decide (i < 0), hone ▸ f64_eq hi, signedMag_natAbs i⟩

theorem hasValue_f64_two_pow {i : Int} (k : Nat) (hi : i = 1 * 2 ^ k) (hk : k < 53) :
    HasValue (f64 i) 1 (1074 + k) := by
  rw [hasValue_add_iff, ← hi]
  refine hasValue_f64 ?_
  rw [hi, one_mul, Int.natAbs_pow]
  exact Nat.pow_lt_pow_right (by decide) hk

theorem hasValue_fneg (hx : HasValue x a e) : HasValue (fneg x) (-a) e := by
  obtain ⟨neg, rfl, ha⟩ := hx
  exact ⟨!neg, by rw [Int.natAbs_neg]; rfl, by rw [Int.natAbs_neg, signedMag_not, ha]⟩

/-- The sum of two numbers of one exponent: their exact sum rounded once, or a zero. -/
theorem fadd_of_hasValue (hx : HasValue x a e) (hy : HasValue y b e) :
    (a + b ≠ 0 → fadd x y = roundToBinary64 (decide (a + b < 0)) ((a + b).natAbs * 2 ^ e) 1)
      ∧ (a + b = 0 → ∃ neg, fadd x y = .fin neg 0) := by
  obtain ⟨s, rfl, ha⟩ := hx
  obtain ⟨t, rfl, hb⟩ := hy
  have hpos : (0 : Int) < 2 ^ e := by positivity
  have hsum : signedMag s (a.natAbs * 2 ^ e) + signedMag t (b.natAbs * 2 ^ e) = (a + b) * 2 ^ e := by
    rw [signedMag_mul, signedMag_mul, ha, hb, ← add_mul, Nat.cast_pow, Nat.cast_ofNat]
  have hmag : ((a + b) * 2 ^ e).natAbs = (a + b).natAbs * 2 ^ e := by simp [Int.natAbs_mul, Int.natAbs_pow]
  have hneg : (a + b) * 2 ^ e < 0 ↔ a + b < 0 := by simp [mul_neg_iff, hpos, hpos.not_gt]
  rw [fadd_fin_fin, faddFinite, hsum, hmag, decide_eq_decide.mpr hneg]
  refine ⟨fun h => if_neg (mul_ne_zero h hpos.ne'), fun h => ⟨s && t, if_pos (by rw [h, zero_mul])⟩⟩

theorem hasValue_fadd (hx : HasValue x a e) (hy : HasValue y b e) (hab : (a + b).natAbs < 2 ^ 53) (he : e ≤ 2045) :
    HasValue (fadd x y) (a + b) e := by
  obtain ⟨hround, hzero⟩ := fadd_of_hasValue hx hy
  by_cases h : a + b = 0
  · obtain ⟨neg, hneg⟩ := hzero h
    exact ⟨neg, by simp [hneg, h], by cases neg <;> simp [h, signedMag]⟩
  · rw [hround h]
    exact hasValue_roundToBinary64 Nat.one_pos (Nat.mul_one _).symm hab he (signedMag_natAbs _)

theorem hasValue_fsub (hx : HasValue x a e) (hy : HasValue y b e) (hab : (a - b).natAbs < 2 ^ 53) (he : e ≤ 2045) :
    HasValue (fsub x y) (a - b) e :=
  hasValue_fadd hx (hasValue_fneg hy) hab he

theorem hasValue_fmul {e₁ e₂ : Nat} (hx : HasValue x a e₁) (hy : HasValue y b e₂) (hexp : e₁ + e₂ = e + 1074)
    (hab : (a * b).natAbs < 2 ^ 53) (he : e ≤ 2045) : HasValue (fmul x y) (a * b) e := by
  obtain ⟨s, rfl, ha⟩ := hx
  obtain ⟨t, rfl, hb⟩ := hy
  obtain ⟨u, hu, hone⟩ := exists_fpOne_eq
  rw [Int.natAbs_mul] at hab
  refine hasValue_roundToBinary64 fpOne_pos ?_ hab he (by rw [signedMag_xor, ha, hb])
  have hpow : 2 ^ e₁ * 2 ^ e₂ = 2 ^ e * 2 ^ u := by rw [← pow_add, ← pow_add, hexp, hu]
  rw [hone, Nat.mul_mul_mul_comm, hpow, Nat.mul_assoc (_ * _)]

/-- Division by a power of two lowers the exponent. -/
theorem hasValue_fdiv_two_pow {k : Nat} (hx : HasValue x a (e + k)) (hy : HasValue y 1 (1074 + k))
    (ha : a.natAbs < 2 ^ 53) (he : e ≤ 2045) : HasValue (fdiv x y) a e := by
  obtain ⟨s, rfl, hs⟩ := hx
  obtain ⟨t, rfl, ht⟩ := hy
  obtain ⟨u, hu, hone⟩ := exists_fpOne_eq
  have ht : t = false := by cases t <;> simp [signedMag] at ht ⊢
  have hpos : 0 < (1 : Int).natAbs * 2 ^ (1074 + k) := by rw [Int.natAbs_one, Nat.one_mul]; exact Nat.two_pow_pos _
  rw [fdiv_fin_fin, if_neg hpos.ne']
  refine hasValue_roundToBinary64 hpos ?_ ha he (by rw [ht, Bool.xor_false, hs])
  rw [hone, ← hu, Int.natAbs_one, Nat.one_mul, pow_add, pow_add]
  ring

end

/-! ### The nodes of CMP.TF (rule R82 b) -/

/-- `RAW_T - 16 * par_t1`, over which both terms of the fine temperature are polynomials. -/
def rawOffset (raw : BitVec 32) (c : TCal) : Int :=
  raw.toNat - 16 * c.par_t1.toNat

theorem fineNumerator_eq (raw : BitVec 32) (c : TCal) :
    fineNumerator raw c = rawOffset raw c * s16 c.par_t2 * 2 ^ 20
      + rawOffset raw c * rawOffset raw c * s8 c.par_t3 * 2 ^ 4 := by
  unfold fineNumerator rawOffset
  ring

theorem natAbs_s16_le (w : BitVec 16) : (s16 w).natAbs ≤ 32768 := by
  unfold s16
  split <;> omega

theorem natAbs_s8_le (b : BitVec 8) : (s8 b).natAbs ≤ 128 := by
  unfold s8
  split <;> omega

section
variable {raw : BitVec 32} (hraw : raw.toNat < 1048576) (c : TCal)
include hraw

theorem natAbs_rawOffset_le : (rawOffset raw c).natAbs ≤ 1048575 := by
  unfold rawOffset
  omega

/-- A difference of the quotients of RAW_T and par_t1 by powers of two whose ratio is 16. -/
theorem hasValue_quotient_sub {i j : Int} {k e : Nat} (hk : k < 49) (hi : i = 1 * 2 ^ (k + 4)) (hj : j = 1 * 2 ^ k)
    (he : e + (k + 4) = 1074) :
    HasValue (fsub (fdiv (f64 (u32 raw)) (f64 i)) (fdiv (f64 (u16 c.par_t1)) (f64 j))) (rawOffset raw c) e := by
  have hr : HasValue (f64 (u32 raw)) (u32 raw) (e + (k + 4)) := he ▸ hasValue_f64 (by unfold u32; omega)
  have ht : HasValue (f64 (u16 c.par_t1)) (u16 c.par_t1) (e + 4 + k) := by
    rw [show e + 4 + k = 1074 by omega]
    exact hasValue_f64 (by unfold u16; omega)
  have hleft := hasValue_fdiv_two_pow hr (hasValue_f64_two_pow _ hi (by omega)) (by unfold u32; omega) (by omega)
  have hright := hasValue_fdiv_two_pow ht (hasValue_f64_two_pow _ hj (by omega)) (by unfold u16; omega) (by omega)
  have hoffset : rawOffset raw c = u32 raw - u16 c.par_t1 * 2 ^ 4 := by unfold rawOffset u32 u16; ring
  have hle := natAbs_rawOffset_le hraw c
  rw [hoffset] at hle ⊢
  exact hasValue_fsub hleft ((hasValue_add_iff 4).mp hright) (by omega) (by omega)

theorem natAbs_var1_le : (rawOffset raw c * s16 c.par_t2).natAbs ≤ 1048575 * 32768 := by
  rw [Int.natAbs_mul]
  exact Nat.mul_le_mul (natAbs_rawOffset_le hraw c) (natAbs_s16_le c.par_t2)

theorem natAbs_square_le : (rawOffset raw c * rawOffset raw c).natAbs ≤ 1048575 * 1048575 := by
  rw [Int.natAbs_mul]
  exact Nat.mul_le_mul (natAbs_rawOffset_le hraw c) (natAbs_rawOffset_le hraw c)

theorem natAbs_var2_le : (rawOffset raw c * rawOffset raw c * s8 c.par_t3).natAbs ≤ 1048575 * 1048575 * 128 := by
  rw [Int.natAbs_mul]
  exact Nat.mul_le_mul (natAbs_square_le hraw c) (natAbs_s8_le c.par_t3)

theorem hasValue_tfVar1 :
    HasValue (tfVar1 (f64 (u32 raw)) (f64 (u16 c.par_t1)) (f64 (s16 c.par_t2))) (rawOffset raw c * s16 c.par_t2)
      (1040 + 20) := by
  have hbound := natAbs_var1_le hraw c
  have ht2 := natAbs_s16_le c.par_t2
  exact hasValue_fmul (hasValue_quotient_sub hraw c (k := 10) (e := 1060) (by decide) rfl rfl rfl)
    (hasValue_f64 (by omega)) rfl (by omega) (by decide)

theorem hasValue_tfVar2 :
    HasValue (tfVar2 (f64 (u32 raw)) (f64 (u16 c.par_t1)) (f64 (s8 c.par_t3)))
      (rawOffset raw c * rawOffset raw c * s8 c.par_t3) (1040 + 4) := by
  have hdelta := hasValue_quotient_sub hraw c (k := 13) (e := 1057) (by decide) rfl rfl rfl
  have hsquare := natAbs_square_le hraw c
  have hbound := natAbs_var2_le hraw c
  have ht3 := natAbs_s8_le c.par_t3
  have hscaled := hasValue_fmul (hasValue_f64 (i := s8 c.par_t3) (by omega))
    (hasValue_f64_two_pow (i := 16) 4 rfl (by decide)) (e := 1078) rfl (by omega) (by decide)
  rw [mul_one] at hscaled
  exact hasValue_fmul (hasValue_fmul hdelta hdelta (e := 1040) rfl (by omega) (by decide)) hscaled rfl (by omega)
    (by decide)

/-- The last addition rounds the exact value once (rule R82 b); `unit` is 2^-34 in multiples of 2^-1074. -/
theorem fineTemperature_eq {e unit : Nat} (he : e = 1040) (hunit : unit = 2 ^ e) :
    (fineNumerator raw c ≠ 0 →
      fineTemperature raw c =
        roundToBinary64 (decide (fineNumerator raw c < 0)) ((fineNumerator raw c).natAbs * unit) 1)
    ∧ (fineNumerator raw c = 0 → ∃ neg, fineTemperature raw c = .fin neg 0) := by
  have hvar1 := hasValue_tfVar1 hraw c
  have hvar2 := hasValue_tfVar2 hraw c
  rw [hasValue_add_iff, ← he] at hvar1 hvar2
  rw [hunit, fineNumerator_eq]
  exact fadd_of_hasValue hvar1 hvar2

theorem natAbs_fineNumerator_le : (fineNumerator raw c).natAbs ≤ 2299999 * 2 ^ 34 := by
  have hvar1 := natAbs_var1_le hraw c
  have hvar2 := natAbs_var2_le hraw c
  rw [fineNumerator_eq]
  omega

end

/-! ### How far the rounding is from the exact value -/

theorem roundMag_error (n : Nat) : 2 * ((roundMag n 1 : Int) - n).natAbs ≤ 2 ^ ulpExp n := by
  have h := roundHalfEven_spec (Nat.two_pow_pos (ulpExp n)) n
  rw [roundMag, Nat.one_mul, Nat.div_one]
  omega

theorem roundMag_le_of_le {n x : Nat} (hx : OnGrid x) (hn : n ≤ x) : roundMag n 1 ≤ x := by
  have h := (roundMag_nearest Nat.one_pos n hx).1
  omega

section
variable {raw : BitVec 32} (hraw : raw.toNat < 1048576) (c : TCal)
include hraw

theorem roundMag_fineNumerator_le {e unit : Nat} (he : e = 1040) (hunit : unit = 2 ^ e) :
    roundMag ((fineNumerator raw c).natAbs * unit) 1 ≤ 2299999 * fpOne := by
  refine roundMag_le_of_le (onGrid_mul_fpOne (by decide)) ?_
  obtain ⟨u, hu, hone⟩ := exists_fpOne_eq
  rw [hone, hu, show 1074 = 34 + 1040 from rfl, ← he, pow_add, ← hunit, ← Nat.mul_assoc]
  exact Nat.mul_le_mul_right _ (natAbs_fineNumerator_le hraw c)

theorem ulpExp_fineNumerator_le {e unit : Nat} (hunit : unit = 2 ^ e) :
    ulpExp ((fineNumerator raw c).natAbs * unit) ≤ e + 3 := by
  refine ulpExp_le_of_lt ?_
  rw [show 53 + (e + 3) = 56 + e by omega, pow_add, hunit]
  exact Nat.mul_lt_mul_of_pos_right ((natAbs_fineNumerator_le hraw c).trans_lt (by decide)) (Nat.two_pow_pos e)

/-- The fine temperature is a finite number below 2300000, within 2^-32 of the exact value. -/
theorem fineTemperature_spec {e unit : Nat} (he : e = 1040) (hunit : unit = 2 ^ e) :
    (fineTemperature raw c).isFinite = true ∧ (fineTemperature raw c).whole.natAbs ≤ 2299999 * fpOne
      ∧ ((fineTemperature raw c).whole - fineNumerator raw c * unit).natAbs ≤ 4 * unit := by
  obtain ⟨hround, hzero⟩ := fineTemperature_eq hraw c he hunit
  by_cases h : fineNumerator raw c = 0
  · obtain ⟨neg, hneg⟩ := hzero h
    rw [hneg, h]
    cases neg <;> simp [Fp.isFinite, Fp.whole, signedMag]
  · have hle := roundMag_fineNumerator_le hraw c he hunit
    have hlt := hle.trans_lt (mul_fpOne_lt_fpTop (by decide))
    have hexact : fineNumerator raw c * unit
        = signedMag (decide (fineNumerator raw c < 0)) ((fineNumerator raw c).natAbs * unit) := by
      rw [signedMag_mul, signedMag_natAbs]
    rw [hround h, roundToBinary64_of_lt _ hlt, hexact]
    refine ⟨rfl, by rwa [Fp.whole, natAbs_signedMag], ?_⟩
    rw [Fp.whole, natAbs_signedMag_sub]
    have herror := (roundMag_error _).trans (Nat.pow_le_pow_right Nat.two_pos (ulpExp_fineNumerator_le hraw c hunit))
    rw [pow_add, ← hunit] at herror
    omega

end

/-! ### One step of RAW_T (rule R141) -/

theorem lt_of_near {w w' a a' : Int} {unit : Nat} (hpos : 0 < unit) (hw : (w - a).natAbs ≤ 4 * unit)
    (hw' : (w' - a').natAbs ≤ 4 * unit) (ha : a + 9 * unit ≤ a') : w < w' := by
  omega

/-- Two exact values that differ by more than twice the rounding error keep their order. -/
theorem whole_lt_whole_of_fineNumerator {raw raw' : BitVec 32} (hraw : raw.toNat < 1048576)
    (hraw' : raw'.toNat < 1048576) {c : TCal} (h : fineNumerator raw c + 9 ≤ fineNumerator raw' c) :
    (fineTemperature raw c).whole < (fineTemperature raw' c).whole := by
  obtain ⟨e, he⟩ : ∃ e, e = 1040 := ⟨1040, rfl⟩
  obtain ⟨unit, hunit⟩ : ∃ unit, unit = 2 ^ e := ⟨2 ^ e, rfl⟩
  obtain ⟨-, -, hnear⟩ := fineTemperature_spec hraw c he hunit
  obtain ⟨-, -, hnear'⟩ := fineTemperature_spec hraw' c he hunit
  have hpos : 0 < unit := hunit ▸ Nat.two_pow_pos e
  have hmul : (fineNumerator raw c + 9) * unit ≤ fineNumerator raw' c * unit :=
    mul_le_mul_of_nonneg_right h (Int.natCast_nonneg unit)
  rw [add_mul] at hmul
  exact lt_of_near hpos hnear hnear' hmul

theorem fineNumerator_succ {raw : BitVec 32} (hraw : raw.toNat + 1 < 1048576) (c : TCal) :
    fineNumerator (raw + 1#32) c
      = fineNumerator raw c + s16 c.par_t2 * 2 ^ 20 + (2 * rawOffset raw c + 1) * s8 c.par_t3 * 2 ^ 4 := by
  have hsucc : (raw + 1#32).toNat = raw.toNat + 1 := by
    rw [BitVec.toNat_add]
    exact Nat.mod_eq_of_lt (by simp; omega)
  have hoffset : rawOffset (raw + 1#32) c = rawOffset raw c + 1 := by
    unfold rawOffset
    omega
  rw [fineNumerator_eq, fineNumerator_eq, hoffset]
  ring

/-- The quadratic term moves by less than 2^32 in a step, which `par_t2 * 2^20` outweighs from 4097 on. -/
theorem natAbs_quadratic_step_le {raw : BitVec 32} (hraw : raw.toNat < 1048576) (c : TCal) :
    ((2 * rawOffset raw c + 1) * s8 c.par_t3).natAbs ≤ 2097151 * 128 := by
  have hoffset := natAbs_rawOffset_le hraw c
  rw [Int.natAbs_mul]
  exact Nat.mul_le_mul (by omega) (natAbs_s8_le c.par_t3)

end Sys2Proof.Machine

namespace Sys2Proof.Proofs

open Sys2Proof.Machine

/-- Settles O32: every node but the last addition is exact, and that one rounds once. -/
theorem fineTemperatureIsExactRoundedOnce : Obligations.FineTemperatureIsExactRoundedOnce :=
  fun _ c hraw => fineTemperature_eq hraw c rfl (by decide +kernel)

/-- Settles O33: the exact value is below a point of the grid that is itself below the bound. -/
theorem fineTemperatureIsBounded : Obligations.FineTemperatureIsBounded := by
  intro raw c hraw
  obtain ⟨e, he⟩ : ∃ e, e = 1040 := ⟨1040, rfl⟩
  obtain ⟨hfinite, hle, -⟩ := fineTemperature_spec hraw c he rfl
  exact ⟨hfinite, hle.trans_lt (Nat.mul_lt_mul_of_pos_right (by decide) fpOne_pos)⟩

/-- Settles O34: a step moves the exact value by more than the rounding can take back. -/
theorem fineTemperatureStrictlyMonotone : Obligations.FineTemperatureStrictlyMonotone := by
  intro raw c hraw
  have hsucc : (raw + 1#32).toNat < 1048576 := by rw [BitVec.toNat_add]; simp; omega
  have hstep := fineNumerator_succ hraw c
  have hquadratic := natAbs_quadratic_step_le (raw := raw) (by omega) c
  exact ⟨fun ht2 => whole_lt_whole_of_fineNumerator (by omega) hsucc (by omega),
    fun ht2 => whole_lt_whole_of_fineNumerator hsucc (by omega) (by omega)⟩

end Sys2Proof.Proofs
end

section
/-!
PROOFS. The corner cases of all-zero calibrations (45_compensation.md sections 2 and 3): the humidity is +0 (rule R134)
and the pressure of the default tree a NaN (rule R138 a). Both follow the zeros through the trees: a product with a
zero is a zero or a NaN, a quotient by either is no finite number.
-/

namespace Sys2Proof.Machine

/-! ### Zeros and NaNs in the four operations (rules R77, R78) -/

theorem f64_zero : f64 0 = .fin false 0 := by
  rw [f64_of_nonneg le_rfl (by decide), Int.natAbs_zero, Nat.zero_mul]

theorem fmul_zero_right (s t : Bool) (x : Nat) : fmul (.fin s x) (.fin t 0) = .fin (s ^^ t) 0 := by
  rw [fmul_fin_fin, Nat.mul_zero, roundToBinary64_zero _ fpOne_pos]

theorem fdiv_zero_f64 {i : Int} (h0 : 0 < i) (hi : i.natAbs < 2 ^ 53) : fdiv (.fin false 0) (f64 i) = .fin false 0 := by
  have hpos : 0 < i.natAbs * fpOne := Nat.mul_pos (by omega) fpOne_pos
  rw [f64_of_nonneg h0.le hi, fdiv_fin_fin, if_neg hpos.ne', Nat.zero_mul, roundToBinary64_zero _ hpos]
  rfl

theorem fadd_zero_zero (t : Bool) : fadd (.fin false 0) (.fin t 0) = .fin false 0 := by
  cases t <;> rfl

/-- Adding a zero of either sign changes no number whose sign bit is clear. -/
theorem fadd_zero_right {x : Nat} (hx : (Fp.fin false x).representable = true) (t : Bool) :
    fadd (.fin false x) (.fin t 0) = .fin false x := by
  obtain ⟨hlt, hgrid⟩ := (representable_fin_iff false x).mp hx
  have hsum : signedMag false x + signedMag t 0 = x := by cases t <;> simp [signedMag]
  have hround := roundToBinary64_of_onGrid false Nat.one_pos hgrid hlt
  rw [Nat.mul_one] at hround
  rw [fadd_fin_fin, faddFinite, hsum, decide_eq_false (by omega), Int.natAbs_natCast, hround]
  split
  case isTrue h => rw [Int.natCast_eq_zero.mp h]; rfl
  case isFalse => rfl

theorem exists_eq_fin_of_isFinite {a : Fp} (ha : a.isFinite = true) : ∃ s x, a = .fin s x := by
  cases a with
  | nan => cases ha
  | inf t => cases ha
  | fin s x => exact ⟨s, x, rfl⟩

theorem fmul_zero_of_not_isFinite (s : Bool) {a : Fp} (ha : a.isFinite = false) : fmul (.fin s 0) a = .nan := by
  cases a with
  | nan => rfl
  | inf t => rfl
  | fin t x => cases ha

/-- A product with a zero is a NaN or a zero. -/
theorem fmul_zero_cases (a : Fp) (t : Bool) : fmul a (.fin t 0) = .nan ∨ ∃ neg, fmul a (.fin t 0) = .fin neg 0 := by
  cases a with
  | nan => exact .inl rfl
  | inf s => exact .inl rfl
  | fin s x => exact .inr ⟨_, fmul_zero_right s t x⟩

/-- A quotient by a NaN or a zero is no finite number. -/
theorem isFinite_fdiv_eq_false (a : Fp) {b : Fp} (hb : b = .nan ∨ ∃ neg, b = .fin neg 0) :
    (fdiv a b).isFinite = false := by
  obtain rfl | ⟨t, rfl⟩ := hb
  · rw [fdiv_nan_right]; rfl
  · cases a with
    | nan => rfl
    | inf s => rfl
    | fin s x => rw [fdiv_fin_fin, if_pos rfl]; split <;> rfl

/-! ### The humidity with an all-zero record (rule R134) -/

theorem humVar1_zero {r : Nat} (hr : (Fp.fin false r).representable = true) (s : Bool) (x : Nat) :
    humVar1 (.fin false r) (f64 0) (f64 0) (.fin s x) = .fin false r := by
  rw [humVar1, f64_zero, fdiv_zero_f64 (by decide) (by decide), f64_of_nonneg (by decide) (by decide), fmul_zero_left,
    fmul_zero_left, Bool.xor_self, fadd_zero_zero]
  exact fadd_zero_right hr true

theorem humInner_zero {s : Bool} {x : Nat} (hsquare : (fmul (.fin s x) (.fin s x)).isFinite = true) :
    humInner (f64 0) (f64 0) (.fin s x) = f64 1 := by
  obtain ⟨t, y, hy⟩ := exists_eq_fin_of_isFinite hsquare
  have hone := representable_f64 1
  rw [humInner, f64_zero, hy, fdiv_zero_f64 (by decide) (by decide), fdiv_zero_f64 (by decide) (by decide),
    fmul_zero_left, fmul_zero_left]
  rw [f64_of_nonneg (by decide) (by decide)] at hone ⊢
  rw [fadd_zero_right hone, fadd_zero_right hone]

theorem humVar2_zero (r : Nat) : humVar2 (.fin false r) (f64 0) (f64 1) = .fin false 0 := by
  rw [humVar2, f64_zero, fdiv_zero_f64 (by decide) (by decide), f64_of_nonneg (by decide) (by decide), fmul_zero_left,
    Bool.xor_self, fmul_zero_right, Bool.xor_self]

theorem humResult_zero (s : Bool) (x : Nat) :
    humResult (.fin false 0) (f64 0) (f64 0) (.fin s x) = .fin false 0 := by
  rw [humResult, f64_zero, fdiv_zero_f64 (by decide) (by decide), fdiv_zero_f64 (by decide) (by decide), fmul_zero_left,
    fadd_zero_zero, fmul_zero_left, fmul_zero_left, fadd_zero_zero]

theorem humidityPercent_zeroHcal (raw : BitVec 16) {s : Bool} {x : Nat}
    (hsquare : (fmul (.fin s x) (.fin s x)).isFinite = true) :
    humidityPercent raw zeroHcal (.fin s x) = .fin false 0 := by
  have hraw : f64 (u16 raw) = .fin false ((u16 raw).natAbs * fpOne) :=
    f64_of_nonneg (by unfold u16; omega) (by unfold u16; omega)
  have hr := hraw ▸ representable_f64 (u16 raw)
  calc humidityPercent raw zeroHcal (.fin s x)
      = humResult (humVar2 (humVar1 (f64 (u16 raw)) (f64 0) (f64 0) (.fin s x)) (f64 0)
          (humInner (f64 0) (f64 0) (.fin s x))) (f64 0) (f64 0) (.fin s x) := rfl
    _ = humResult (.fin false 0) (f64 0) (f64 0) (.fin s x) := by
      rw [hraw, humVar1_zero hr, humInner_zero hsquare, humVar2_zero]
    _ = .fin false 0 := humResult_zero s x

/-! ### The pressure with an all-zero record (rule R138 a) -/

section
variable (raw : BitVec 32) (t : Fp)

theorem pressEval_add (c : PCal) (a b : PressExpr) :
    pressEval (.add a b) raw c t = fadd (pressEval a raw c t) (pressEval b raw c t) := rfl

theorem pressEval_mul (c : PCal) (a b : PressExpr) :
    pressEval (.mul a b) raw c t = fmul (pressEval a raw c t) (pressEval b raw c t) := rfl

theorem pressEval_div (c : PCal) (a b : PressExpr) :
    pressEval (.div a b) raw c t = fdiv (pressEval a raw c t) (pressEval b raw c t) := rfl

theorem pressEval_par_zeroPcal (f : PcalField) : pressEval (.par f) raw zeroPcal t = .fin false 0 := by
  rw [← f64_zero]
  cases f <;> rfl

/-- The divisor `b1` has the factor par_p1, so `pc` is no finite number. -/
theorem isFinite_pressPc_zeroPcal : (pressEval pressPc raw zeroPcal t).isFinite = false := by
  refine isFinite_fdiv_eq_false _ ?_
  rw [pressB1, pressEval_mul, pressEval_par_zeroPcal]
  exact fmul_zero_cases _ false

/-- `c1` has the factor `par_p9 * pc`, a zero times no finite number. -/
theorem pressC1_zeroPcal : pressEval pressC1 raw zeroPcal t = .nan := by
  have hfactor : pressEval (.mul (.par .p9) pressPc) raw zeroPcal t = .nan := by
    rw [pressEval_mul, pressEval_par_zeroPcal]
    exact fmul_zero_of_not_isFinite false (isFinite_pressPc_zeroPcal raw t)
  rw [pressC1, pressEval_div, pressEval_mul, hfactor]
  rfl

theorem pressPolyDefault_zeroPcal : pressEval pressPolyDefault raw zeroPcal t = .nan := by
  simp only [pressPolyDefault, pressEval_add, pressEval_div, pressC1_zeroPcal]
  exact fadd_nan_right _

end

end Sys2Proof.Machine

namespace Sys2Proof.Proofs

open Sys2Proof.Machine

/-- Settles O37: with the zeros followed through, `inner` is 1 and every product with a field a zero. -/
theorem zeroHumidityCalibrationGivesZero : Obligations.ZeroHumidityCalibrationGivesZero := by
  intro raw t ht hsquare
  obtain ⟨s, x, rfl⟩ := exists_eq_fin_of_isFinite ht
  exact humidityPercent_zeroHcal raw hsquare

/-- Settles O36: the tree's value is a NaN, delivered as a quiet one; a delivery keeps the fault record. -/
theorem zeroPressureCalibrationGivesNaN : Obligations.ZeroPressureCalibrationGivesNaN := by
  intro s raw x hpoly hr hc hx
  have hvalue : pressurePascal s.params raw zeroPcal (Fp.ofBits x) = .nan := by
    rw [pressurePascal, hpoly, pressPolyDefault_zeroPcal]
  have hexec := exec_cmpP_of_eq_some hr hc hx
  rw [hvalue, deliverPress_eq] at hexec
  exact ⟨_, _, hexec, rfl, isQuietNaN_quietNaN _, rfl, rfl, rfl⟩

end Sys2Proof.Proofs
end
